-- ==== Sys2Proof/Word.lean ====
section
/-! DEFINITION. The word types of varint_core: a byte, an unsigned 64-bit value, a 32-bit count, the ten-byte window. -/

namespace Sys2Proof

/-- One byte of an encoded varint (R36). -/
abbrev Byte := BitVec 8

/-- `u64` of R6: `W_VALUE = 64` (R5). -/
abbrev U64 := BitVec 64

/-- The two's-complement pattern of an `i32` (R6): `W_COUNT = 32` (R5). -/
abbrev Count := BitVec 32

/-- The DECODE operand: ten byte positions, 0 to 9 (R34). -/
abbrev Window := Vector Byte 10

end Sys2Proof
end

