-- ==== Sys2Proof/Config.lean ====
section
/-! DEFINITION. What an implementation fixes when the block is built (R5, R157) and the free values the spec leaves open. -/

namespace Sys2Proof

/-- `SIZE_STRATEGY` of R5, and `other`: "An implementation other than the reference strategies" of R163,
whose latency is a draw. -/
inductive SizeStrategy where
  | flat
  | iterative
  | other
  deriving DecidableEq, Repr

/-- `DECODE_STRATEGY` of R5, and `other`: "An implementation other than the reference strategies" of R163,
whose latency is a draw. -/
inductive DecodeStrategy where
  | unrolled
  | iterative
  | other
  deriving DecidableEq, Repr

/-- `OVF_BIAS`, a parameter in {1, 2} (R5): the magnitude bias of an overflow count (R98). -/
inductive OvfBias where
  | one
  | two
  deriving DecidableEq, Repr

/-- The parameters of R5. "A model takes each parameter marked 'parameter' as an argument": the host fixes the
type of `exec`, so the argument stands in `State.params`, and a statement about every state is one about every
parameter (DESIGN CHOICE, log entry 2). -/
structure Params where
  sizeStrategy   : SizeStrategy
  decodeStrategy : DecodeStrategy
  latMax         : Nat
  ovfBias        : OvfBias
  deriving DecidableEq, Repr

/-- The legal parameters: `LAT_MAX` is at least 1 (R5), and with `LAT_MAX` below 10 neither unit is ITERATIVE. R81 says
that such an implementation "must use FLAT" and R105 that it "must use UNROLLED"; the model reads both as a choice
between the two reference strategies, so `other` stays legal under every `LAT_MAX` (DEDUCED, log entry 20). -/
abbrev Params.Legal (p : Params) : Prop :=
  1 ≤ p.latMax ∧
    (p.latMax < 10 → p.sizeStrategy ≠ .iterative ∧ p.decodeStrategy ≠ .iterative)

/-! Free values: constants with no body, applied to the counter `State.draws`. -/

/-- The latency draw of R29: whether a busy edge of a non-reference implementation calls `finish` (DEDUCED, log entry 8). -/
opaque Config.freeFinish : Nat → Bool

/-- `rsp_value` while BUSY: "a fresh draw at each edge" (R31; log entry 5). -/
opaque Config.freeResValue : Nat → U64

/-- `rsp_count` while BUSY (R31). -/
opaque Config.freeResCount : Nat → Count

/-- `rsp_status` while BUSY (R31), as its two-bit code. -/
opaque Config.freeResStatus : Nat → BitVec 2

/-- `op_r` after a reset edge: "unspecified" (R32; log entry 4). -/
opaque Config.freeOp : Nat → BitVec 2

/-- `x_r` after a reset edge (R32). -/
opaque Config.freeX : Nat → U64

/-- `buf_r[0..9]` after a reset edge (R32). -/
opaque Config.freeBuf : Nat → Window

/-- `avail_r` after a reset edge (R32). -/
opaque Config.freeAvail : Nat → BitVec 4

/-- `acc` after a reset edge (R32). -/
opaque Config.freeAcc : Nat → U64

/-- `idx` after a reset edge (R32). -/
opaque Config.freeIdx : Nat → BitVec 4

/-- `sz_rem` after a reset edge (R32). -/
opaque Config.freeSzRem : Nat → U64

/-- `sz_cnt` after a reset edge (R32). -/
opaque Config.freeSzCnt : Nat → BitVec 4

/-- The value a host gets that reads `rsp_value` in a cycle without `done = 1` (R160; log entry 11). -/
opaque Config.freeReadValue : Nat → U64

/-- The count a host gets that reads `rsp_count` in a cycle without `done = 1` (R160). -/
opaque Config.freeReadCount : Nat → Count

/-- The status code a host gets that reads `rsp_status` in a cycle without `done = 1` (R160). -/
opaque Config.freeReadStatus : Nat → BitVec 2

end Sys2Proof
end

