-- ==== Sys2Proof/Syntax.lean ====
section
/-! DEFINITION. The syntax: one constructor of `Instr` per row of spec/opcode_table.json, and the text notation of R67. -/

namespace Sys2Proof

/-- The operand fields of a REQ word (R53): `x` at bits 65 to 2, `buf` at bits 145 to 66 as the ten bytes of R43,
`len` at bits 149 to 146. Every request carries all three, and acceptance latches all three (R28), whichever of them
the operation reads (R55). -/
structure Operands where
  x   : U64
  buf : Window
  len : BitVec 4
  deriving DecidableEq, Repr

/-- The op map of R57: one request kind per row of the opcode table. -/
inductive Instr where
  | decode (f : Operands)
  | size   (f : Operands)
  | rsvd2  (f : Operands)
  | rsvd3  (f : Operands)
  deriving DecidableEq, Repr

/-- A request written as text (R67). Numbers and bytes are what stands in the text, before any check. -/
inductive Source where
  /-- `DECODE len=<n> [<b0>, ..., <bk>]` -/
  | decodeLen (len : Nat) (bytes : List Nat)
  /-- The pseudo-form `DECODE [<b0>, ..., <bk>]`: len is the number of listed bytes. -/
  | decodeList (bytes : List Nat)
  /-- `SIZE <x>` -/
  | size (x : Nat)
  | rsvd2
  | rsvd3
  deriving DecidableEq, Repr

end Sys2Proof
end

