-- ==== Sys2Proof/WellFormed.lean ====
section
/-! DEFINITION. Which text requests denote a REQ word. An `Instr` needs no check: "Every value of the 150-bit REQ word
selects exactly one row" (R58), every `req_len` is legal (R60), and the widths of R53 are in the types. -/

namespace Sys2Proof

/-- A listed window byte is a byte. -/
def bytesFit (bytes : List Nat) : Bool := bytes.all fun b => decide (b < 256)

/-- The checks on a text request (R67; DEDUCED, log entry 12): `len` fits its four bits; the `len=` form lists window bytes, of which
there are ten (R34); the pseudo-form lists at most 15; the SIZE operand is a u64 (R56). -/
def Source.wellFormed : Source → Bool
  | .decodeLen len bytes => decide (len < 16) && decide (bytes.length ≤ 10) && bytesFit bytes
  | .decodeList bytes => decide (bytes.length ≤ 15) && bytesFit bytes
  | .size x => decide (x < 2 ^ 64)
  | .rsvd2 => true
  | .rsvd3 => true

end Sys2Proof
end

