-- ==== Sys2Proof/Decode.lean ====
section
/-! DEFINITION. Decoding a REQ word and its bytes, the encoder, and the text notation (R43, R53, R57, R67, R68). -/

namespace Sys2Proof

/-- Window byte i is `req_buf[8i+7 : 8i]` (R43). -/
def Window.ofPort (p : BitVec 80) : Window :=
  #v[p.extractLsb' 0 8, p.extractLsb' 8 8, p.extractLsb' 16 8, p.extractLsb' 24 8, p.extractLsb' 32 8,
     p.extractLsb' 40 8, p.extractLsb' 48 8, p.extractLsb' 56 8, p.extractLsb' 64 8, p.extractLsb' 72 8]

/-- The port value of a window: byte 0 in `req_buf[7:0]`, byte 9 in `req_buf[79:72]` (R43). -/
def Window.toPort (w : Window) : BitVec 80 :=
  w[9] ++ (w[8] ++ (w[7] ++ (w[6] ++ (w[5] ++ (w[4] ++ (w[3] ++ (w[2] ++ (w[1] ++ w[0]))))))))

/-- The window that holds the listed bytes from position 0; positions not listed are 0x00 (R67), and positions
beyond 9 do not exist (R34). -/
def Window.ofList (l : List Byte) : Window :=
  #v[l.getD 0 0, l.getD 1 0, l.getD 2 0, l.getD 3 0, l.getD 4 0,
     l.getD 5 0, l.getD 6 0, l.getD 7 0, l.getD 8 0, l.getD 9 0]

/-- The op map (R57): the row an op code selects, with the request's fields. -/
def Instr.ofOp (op : BitVec 2) (f : Operands) : Instr :=
  if op = 0b00#2 then .decode f
  else if op = 0b01#2 then .size f
  else if op = 0b10#2 then .rsvd2 f
  else .rsvd3 f

/-- The op code of a request kind (R57). -/
def Instr.op : Instr → BitVec 2
  | .decode _ => 0b00#2
  | .size _ => 0b01#2
  | .rsvd2 _ => 0b10#2
  | .rsvd3 _ => 0b11#2

/-- The operand fields of a request. -/
def Instr.fields : Instr → Operands
  | .decode f => f
  | .size f => f
  | .rsvd2 f => f
  | .rsvd3 f => f

/-- The fields of a REQ word (R53). -/
def reqOperands (w : BitVec 150) : Operands :=
  { x := w.extractLsb' 2 64, buf := Window.ofPort (w.extractLsb' 66 80), len := w.extractLsb' 146 4 }

/-- The request a REQ word denotes: total, selected by `op` alone (R53, R58). -/
def decodeReq (w : BitVec 150) : Instr := Instr.ofOp (w.extractLsb' 0 2) (reqOperands w)

/-- Why bytes are no REQ word. The bytes of a request are the model's own (DESIGN CHOICE, log entry 7). -/
inductive DecodeReject where
  /-- fewer than the 19 bytes that hold 150 bits -/
  | tooFewBytes
  /-- a bit above bit 149 is set: a REQ word has 150 bits (R52) -/
  | bitsAboveReq
  deriving DecidableEq, Repr

/-- What the byte decoder answers. -/
inductive Decoded where
  | request (i : Instr) (rest : List Byte)
  | rejected (why : DecodeReject)
  deriving DecidableEq, Repr

/-- The number of bytes that hold a REQ word: 150 bits are 18 bytes and 6 bits. -/
def reqBytes : Nat := 19

/-- The number whose bytes, least significant first, are the list. -/
def natOfBytes : List Byte → Nat
  | [] => 0
  | b :: bs => b.toNat + 256 * natOfBytes bs

/-- The k low bytes of a number, least significant first. -/
def bytesOfNat : Nat → Nat → List Byte
  | 0, _ => []
  | k + 1, n => BitVec.ofNat 8 n :: bytesOfNat k (n / 256)

/-- The request a number denotes, when it is a 150-bit number. -/
def decodeNumber (n : Nat) (rest : List Byte) : Decoded :=
  if n < 2 ^ 150 then .request (decodeReq (BitVec.ofNat 150 n)) rest else .rejected .bitsAboveReq

/-- Decoding bytes: total, rejecting by name. -/
def decodeBytes (bs : List Byte) : Decoded :=
  if bs.length < reqBytes then .rejected .tooFewBytes
  else decodeNumber (natOfBytes (bs.take reqBytes)) (bs.drop reqBytes)

/-- The encoder: `REQ = op | (x << 2) | (buf << 66) | (len << 146)` (R53), as the concatenation of the fields. -/
def encode (i : Instr) : BitVec 150 :=
  i.fields.len ++ (Window.toPort i.fields.buf ++ (i.fields.x ++ i.op))

/-- The bytes of a request, least significant first, the two bits above bit 149 zero. -/
def encodeBytes (i : Instr) : List Byte := bytesOfNat reqBytes (encode i).toNat

/-- The host's question: what the decoder reads from an instruction whose low `nbits` bits are `w`'s and whose
other bits are 0. -/
def decodeTableWord (nbits w : Nat) : Option Instr :=
  match decodeBytes (bytesOfNat reqBytes (w % 2 ^ nbits)) with
  | .request i _ => some i
  | .rejected _ => none

/-- The RSP word (R54): value at bits 63 to 0, count at bits 95 to 64, status at bits 97 to 96. -/
def rspWord (value : U64) (count : Count) (status : BitVec 2) : BitVec 98 :=
  status ++ (count ++ value)

/-- A listed byte of a text request. -/
def textBytes (bytes : List Nat) : List Byte := bytes.map (BitVec.ofNat 8)

/-- The request a text denotes (R68); a text that fails a check of R67 denotes none. -/
def Source.assemble (t : Source) : Option Instr :=
  if t.wellFormed then
    some (match t with
      | .decodeLen n bytes =>
        .decode { x := 0, buf := Window.ofList (textBytes bytes), len := BitVec.ofNat 4 n }
      | .decodeList bytes =>
        .decode { x := 0, buf := Window.ofList (textBytes bytes), len := BitVec.ofNat 4 bytes.length }
      | .size x => .size { x := BitVec.ofNat 64 x, buf := Window.ofPort 0, len := 0 }
      | .rsvd2 => .rsvd2 { x := 0, buf := Window.ofPort 0, len := 0 }
      | .rsvd3 => .rsvd3 { x := 0, buf := Window.ofPort 0, len := 0 })
  else none

end Sys2Proof
end

