-- ==== Sys2Proof/Machine/State.lean ====
section
/-! DEFINITION. The state of varint_core as plain data, the reasons a step could stop, and the state after reset. -/

namespace Sys2Proof.Machine

/-- No fault exists: "The block has no synchronous exception, trap, halt or stuck state" (R132; log entry 15). -/
inductive Fault where
  deriving DecidableEq, Repr

/-- Why a request would have no meaning. -/
inductive Refusal where
  /-- Raised by an arm of `exec` whose instruction is not modelled yet; no arm raises it now. Safe: the run stops. -/
  | notModelled (mnemonic : String)
  deriving DecidableEq, Repr

/-- The status codes (R23). -/
inductive Status where
  | ok
  | short
  | overflow
  | illegal
  deriving DecidableEq, Repr

/-- The input ports but for `clk`, whose rising edge is the step (R13). -/
structure InPorts where
  rst      : Bool
  reqValid : Bool
  reqOp    : BitVec 2
  reqX     : U64
  reqBuf   : BitVec 80
  reqLen   : BitVec 4
  deriving DecidableEq, Repr

/-- The levels of a host that offers nothing and does not reset the block. -/
def InPorts.quiet : InPorts :=
  { rst := false, reqValid := false, reqOp := 0, reqX := 0, reqBuf := 0, reqLen := 0 }

/-- Everything the spec gives the block, the ports it samples, its build parameters, and two counters of the model's own. -/
structure State where
  /-- The block holds an accepted request without a response (R16). -/
  busy : Bool
  /-- The result registers hold the response of the last accepted request (R16). -/
  done : Bool
  /-- `op_r` (R19). -/
  opR : BitVec 2
  /-- `x_r` (R19). -/
  xR : U64
  /-- `buf_r[0..9]` (R19). -/
  bufR : Window
  /-- `avail_r` (R19). -/
  availR : BitVec 4
  /-- `acc`, the decoder's accumulator (R20); an UNROLLED block holds it too (DESIGN CHOICE, log entry 19). -/
  acc : U64
  /-- `idx`, the decoder's byte index (R20); an UNROLLED block holds it too (DESIGN CHOICE, log entry 19). -/
  idx : BitVec 4
  /-- `sz_rem`, the size calculator's remainder (R21); a FLAT block holds it too (DESIGN CHOICE, log entry 19). -/
  szRem : U64
  /-- `sz_cnt`, the size calculator's iteration count (R21); a FLAT block holds it too (DESIGN CHOICE, log entry 19). -/
  szCnt : BitVec 4
  /-- `res_value` (R22). -/
  resValue : U64
  /-- `res_count` (R22). -/
  resCount : Count
  /-- `res_status` (R22, R23). -/
  resStatus : Status
  /-- The levels on the input ports, sampled at the next edge (R13). -/
  ports : InPorts
  /-- The levels the host drives in the cycles after that, in order; then it is quiet (DESIGN CHOICE, log entry 6). -/
  script : List InPorts
  /-- The build parameters (R5); no edge writes them (R157). -/
  params : Params
  /-- The model's own (DESIGN CHOICE, log entry 8): busy edges since acceptance, which bounds the latency draw by
  `LAT_MAX` (R29). -/
  waited : Nat
  /-- The model's own (DESIGN CHOICE, log entry 18): the index of the next free values; every edge advances it. -/
  draws : Nat
  deriving DecidableEq, Repr

/-- The build of the reset state (DESIGN CHOICE, log entry 2): the one-edge reference datapaths, `LAT_MAX` 10 (what "the reference
implementations give") and `OVF_BIAS` at its default 2 (R5). -/
def Params.default : Params :=
  { sizeStrategy := .flat, decodeStrategy := .unrolled, latMax := 10, ovfBias := .two }

/-- The state after reset (R32, R155). The latches and datapath registers are unspecified there: zero is the
model's value (DESIGN CHOICE, log entry 3). -/
def State.reset : State :=
  { busy := false, done := false
    opR := 0, xR := 0, bufR := Window.ofPort 0, availR := 0
    acc := 0, idx := 0, szRem := 0, szCnt := 0
    resValue := 0, resCount := 0, resStatus := .ok
    ports := InPorts.quiet, script := []
    params := Params.default, waited := 0, draws := 0 }

end Sys2Proof.Machine
end

