-- ==== Sys2Proof/Machine/Operands.lean ====
section
/-! DEFINITION. Operand forms and the decoder's sub-units: the valid length, the window read, the continuation bit,
the 7-bit group and the byte shifter (R42, R60, R93 to R95, R99). -/

namespace Sys2Proof.Machine

/-- The most bytes DECODE examines: `MAX_LEN` (R5). -/
def maxLen : Nat := 10

/-- `avail = min(len, 10)` (R60). -/
def avail (f : Operands) : Nat := min f.len.toNat maxLen

/-- What `avail_r` is loaded with (R19): `min(req_len, 10)` on the four bits of the latch. -/
def availBits (len : BitVec 4) : BitVec 4 := BitVec.ofNat 4 (min len.toNat maxLen)

/-- `MemRead(i, 1)`: byte i of the window (R42). It is defined only for i < avail, and the decoder reads no other
position (R99, `examine_reads_valid_bytes`): the zero past position 9 is never used (DESIGN CHOICE, log entry 14). -/
def memRead (f : Operands) (i : Nat) : Byte := f.buf[i]?.getD 0

/-- The short-buffer detector (R99). -/
def shortBuffer (f : Operands) (i : Nat) : Bool := decide (avail f ≤ i)

/-- The continuation-bit detector `b[7]` (R36, R93). -/
def cont (b : Byte) : Bool := b.getLsbD 7

/-- The group extractor `b[6:0]` (R94). -/
def grp (b : Byte) : BitVec 7 := b.extractLsb' 0 7

/-- The byte shifter `zext_64(grp(b)) << (7*i)` (R95). -/
def sh (b : Byte) (i : Nat) : U64 := (grp b).setWidth 64 <<< (7 * i)

end Sys2Proof.Machine
end

