-- ==== Sys2Proof/Machine/Flags.lean ====
section
/-! DEFINITION. Responses and their status, the block's only flags (R23, R131), the overflow checker and its count (R96, R98). -/

namespace Sys2Proof.Machine

/-- The two-bit code of a status (R23). -/
def Status.code : Status → BitVec 2
  | .ok => 0b00#2
  | .short => 0b01#2
  | .overflow => 0b10#2
  | .illegal => 0b11#2

/-- The status a two-bit code names (R23). -/
def Status.ofCode (c : BitVec 2) : Status :=
  if c = 0b00#2 then .ok else if c = 0b01#2 then .short else if c = 0b10#2 then .overflow else .illegal

/-- The arguments of `finish(v, c, s)`: a u64, an integer and a status code (R30). -/
structure Response where
  value  : U64
  count  : Int
  status : Status
  deriving DecidableEq, Repr

/-- One response on the `rsp_*` ports (R52, R54). -/
structure Rsp where
  value  : U64
  count  : Count
  status : Status
  deriving DecidableEq, Repr

/-- `to_i32(n)` (R6). -/
def toI32 (n : Int) : Count := BitVec.ofInt 32 n

/-- A response as the result registers hold it (R30). -/
def Response.toRsp (r : Response) : Rsp := { value := r.value, count := toI32 r.count, status := r.status }

/-- The RSP word of a response (R54). -/
def Rsp.word (r : Rsp) : BitVec 98 := rspWord r.value r.count r.status.code

/-- The number a parameter value stands for (R5). -/
def OvfBias.num : OvfBias → Int
  | .one => 1
  | .two => 2

/-- The overflow checker (R96): only at index 9, a byte above 0x01. -/
def overflowAt (i : Nat) (b : Byte) : Bool := i == 9 && decide (1 < b.toNat)

/-- The count of an overflow response, `-(9 + OVF_BIAS)` (R98). -/
def overflowCount (bias : OvfBias) : Int := -(9 + OvfBias.num bias)

/-- DECODE found a terminating byte: `(v, n, OK)` (R92). -/
def okResponse (v : U64) (n : Nat) : Response := { value := v, count := n, status := .ok }

/-- The window is exhausted: `(0, 0, SHORT)` (R99, R101). -/
def shortResponse : Response := { value := 0, count := 0, status := .short }

/-- The value needs more than 64 bits: `(0, -(9 + OVF_BIAS), OVERFLOW)` (R96, R101). -/
def overflowResponse (bias : OvfBias) : Response :=
  { value := 0, count := overflowCount bias, status := .overflow }

/-- The response of SIZE: `(0, k, OK)` (R76). -/
def sizeResponse (k : Nat) : Response := { value := 0, count := k, status := .ok }

/-- The response of a reserved request: `(0, 0, ILLEGAL)` (R116). -/
def illegalResponse : Response := { value := 0, count := 0, status := .illegal }

end Sys2Proof.Machine
end

