-- ==== Sys2Proof/Machine/Ops.lean ====
section
/-! DEFINITION. The operations every edge is made of: acceptance, `finish`, staying BUSY, the reset edge, and what the
ports show. There is no trap entry and no trap return (R138, R139): `finish` is the one way a request ends. -/

namespace Sys2Proof.Machine

/-- The response primitive `finish(v, c, s)` (R30). -/
def State.finish (s : State) (r : Response) : State :=
  { s with
    resValue := r.value, resCount := toI32 r.count, resStatus := r.status
    busy := false, done := true }

/-- The result registers take unspecified values, a fresh draw (R31; log entry 5). -/
def State.drawResults (s : State) : State :=
  { s with
    resValue := Config.freeResValue s.draws
    resCount := Config.freeResCount s.draws
    resStatus := Status.ofCode (Config.freeResStatus s.draws) }

/-- A busy edge that does not call `finish`: the block stays BUSY (R29), its results unspecified (R31). -/
def State.stayBusy (s : State) : State := { s.drawResults with waited := s.waited + 1 }

/-- The busy edge of a non-reference implementation (R29, R163; DEDUCED, log entry 8): it calls `finish` or stays BUSY,
as a draw decides, and calls it no later than the `LAT_MAX`-th busy edge. -/
def State.finishOrWait (s : State) (r : Response) : State :=
  if decide (s.params.latMax ≤ s.waited + 1) || Config.freeFinish s.draws then s.finish r else s.stayBusy

/-- The block follows the reference strategies of R5 in both units. One that does not, in either unit, is "An
implementation other than the reference strategies" of R163 (DEDUCED, log entry 9). -/
abbrev State.Reference (s : State) : Prop :=
  s.params.sizeStrategy ≠ .other ∧ s.params.decodeStrategy ≠ .other

/-- The acceptance edge (R28): the request on the ports is latched. -/
def State.accept (s : State) (p : InPorts) : State :=
  { s.drawResults with
    opR := p.reqOp, xR := p.reqX, bufR := Window.ofPort p.reqBuf, availR := availBits p.reqLen
    acc := 0, idx := 0
    szRem := p.reqX, szCnt := 0
    busy := true, done := false
    waited := 0 }

/-- The reset edge (R152): the latches and datapath registers become unspecified (R32; log entry 4). -/
def State.resetEdge (s : State) : State :=
  { s with
    busy := false, done := false
    resValue := 0, resCount := 0, resStatus := .ok
    opR := Config.freeOp s.draws, xR := Config.freeX s.draws
    bufR := Config.freeBuf s.draws, availR := Config.freeAvail s.draws
    acc := Config.freeAcc s.draws, idx := Config.freeIdx s.draws
    szRem := Config.freeSzRem s.draws, szCnt := Config.freeSzCnt s.draws }

/-- After an edge the host drives its next levels, and the free values of that edge are used up. -/
def State.tick (s : State) : State :=
  { s with
    ports := s.script.headD InPorts.quiet
    script := s.script.tail
    draws := s.draws + 1 }

/-- The request the latches hold (R19): "All later processing of the request reads only these latches". -/
def State.latched (s : State) : Instr :=
  Instr.ofOp s.opR { x := s.xR, buf := s.bufR, len := s.availR }

/-- The request the latches hold, as a REQ word (R53). -/
def State.latchedWord (s : State) : BitVec 150 :=
  s.availR ++ (Window.toPort s.bufR ++ (s.xR ++ s.opR))

/-- The request the ports offer (R13, R53). -/
def InPorts.offered (p : InPorts) : Instr :=
  Instr.ofOp p.reqOp { x := p.reqX, buf := Window.ofPort p.reqBuf, len := p.reqLen }

/-- The request the ports offer, as a REQ word: "The hardware ports carry the same fields in parallel" (R53). -/
def InPorts.word (p : InPorts) : BitVec 150 := p.reqLen ++ (p.reqBuf ++ (p.reqX ++ p.reqOp))

/-- The ports of a host that offers the request with the given REQ word, `rst` low. -/
def InPorts.offering (w : BitVec 150) : InPorts :=
  { rst := false, reqValid := true
    reqOp := w.extractLsb' 0 2, reqX := w.extractLsb' 2 64
    reqBuf := w.extractLsb' 66 80, reqLen := w.extractLsb' 146 4 }

/-- `req_ready = (busy == 0) & (rst == 0)`, combinational (R27). -/
def State.reqReady (s : State) : Bool := !s.busy && !s.ports.rst

/-- The output ports (R13). -/
structure OutPorts where
  reqReady  : Bool
  busy      : Bool
  done      : Bool
  rspValue  : U64
  rspCount  : Count
  rspStatus : BitVec 2
  deriving DecidableEq, Repr

/-- What the output ports show: driven straight from registers, but for `req_ready` (R14). -/
def State.outputs (s : State) : OutPorts :=
  { reqReady := s.reqReady, busy := s.busy, done := s.done
    rspValue := s.resValue, rspCount := s.resCount, rspStatus := s.resStatus.code }

/-- The three result registers together. -/
def State.rsp (s : State) : Rsp := { value := s.resValue, count := s.resCount, status := s.resStatus }

/-- What a host gets that reads the response: the posted one with `done = 1`, else a draw (R160; log entry 11). -/
def State.hostRead (s : State) : Rsp :=
  if s.done then s.rsp
  else
    { value := Config.freeReadValue s.draws
      count := Config.freeReadCount s.draws
      status := Status.ofCode (Config.freeReadStatus s.draws) }

/-- The phases of R16. -/
inductive Phase where
  | idle
  | busy
  | done
  deriving DecidableEq, Repr

/-- The phase of a state; the pair (1, 1) is none (R16). -/
def State.phase (s : State) : Option Phase :=
  match s.busy, s.done with
  | false, false => some .idle
  | true, false => some .busy
  | false, true => some .done
  | true, true => none

end Sys2Proof.Machine
end

