-- ==== Sys2Proof/Machine/Reserved.lean ====
section
/-! DEFINITION. The reserved requests RSVD2 and RSVD3 (R116, R117). -/

namespace Sys2Proof.Machine

/-- The ILLEGAL step: `finish(0, 0, ILLEGAL)`, at the first busy edge in every strategy of R5 (R116, R117). Another
implementation "may take any d in 1..`LAT_MAX`" for every request (R163; DEDUCED, log entry 9). -/
def State.illegalStep (s : State) : State :=
  if s.Reference then s.finish illegalResponse else s.finishOrWait illegalResponse

/-- `RSVD2` reads no operand (R55, R116). -/
def execRsvd2 (_f : Operands) (s : State) : Host.Outcome State Fault Refusal := .next s.illegalStep

/-- `RSVD3` reads no operand (R55, R116). -/
def execRsvd3 (_f : Operands) (s : State) : Host.Outcome State Fault Refusal := .next s.illegalStep

end Sys2Proof.Machine
end

