-- ==== Sys2Proof/Machine/SizeCalculator.lean ====
section
/-! DEFINITION. The size_calculator: the contract of SIZE, its two reference datapaths, and the meaning of SIZE (R76 to R81). -/

namespace Sys2Proof.Machine

/-- The inclusive upper bound `T_k` of size class k (R77); `T_10` is 2^64 - 1. -/
def threshold (k : Nat) : Nat := min (2 ^ (7 * k)) (2 ^ 64) - 1

/-- The rest of R76's loop from class k on, with n classes left to try. -/
def sizeFrom (x : U64) : Nat → Nat → Nat
  | 0, _ => 10
  | n + 1, k => if x.toNat ≤ 2 ^ (7 * k) - 1 then k else sizeFrom x n (k + 1)

/-- `size(x)` (R76): the least k in 1..9 with x ≤ 2^(7k) - 1, else 10. -/
def size (x : U64) : Nat := sizeFrom x 9 1

/-- The FLAT range comparator (R79): `s <- 10; for k in 9 down to 1: if x_r <= T_k: s <- k`. -/
def flatSize (x : U64) : Nat :=
  [9, 8, 7, 6, 5, 4, 3, 2, 1].foldl (fun s k => if x.toNat ≤ threshold k then k else s) 10

/-- One busy edge of the ITERATIVE bit counter (R80): shift by 7 bits, then test. -/
def State.sizeIterate (s : State) : State :=
  let r := s.szRem >>> 7
  if r = 0 then s.finish (sizeResponse (s.szCnt.toNat + 1))
  else { s.stayBusy with szRem := r, szCnt := s.szCnt + 1 }

/-- `SIZE x`: the busy edge of the configured `SIZE_STRATEGY` (R29, R76). A block that is not ITERATIVE holds `sz_rem` and
`sz_cnt`, which R21 does not ask of it (DESIGN CHOICE, log entry 19 for FLAT, 8 for `other`). -/
def execSize (f : Operands) (s : State) : Host.Outcome State Fault Refusal :=
  match s.params.sizeStrategy with
  | .flat => .next (s.finish (sizeResponse (flatSize f.x)))
  | .iterative => .next s.sizeIterate
  | .other => .next (s.finishOrWait (sizeResponse (size f.x)))

end Sys2Proof.Machine
end

