-- ==== Sys2Proof/Machine/VarintDecoder.lean ====
section
/-! DEFINITION. The varint_decoder: the contract of DECODE, its two reference datapaths, and the meaning of DECODE (R92 to R105). -/

namespace Sys2Proof.Machine

/-- What examining one byte index answers: the decode ends, or the accumulator goes on to the next index. -/
inductive Examined where
  | stop (r : Response)
  | more (acc : U64)
  deriving DecidableEq, Repr

/-- One index of R92's loop, the checks in the order of R100: short buffer, overflow, continuation bit. -/
def examine (bias : OvfBias) (f : Operands) (i : Nat) (acc : U64) : Examined :=
  if shortBuffer f i then .stop shortResponse
  else if overflowAt i (memRead f i) then .stop (overflowResponse bias)
  else if cont (memRead f i) then .more (acc ||| sh (memRead f i) i)
  else .stop (okResponse (acc ||| sh (memRead f i) i) (i + 1))

/-- R92's loop from index i on, with n indices left. The end of the loop is not reached (R92, R103; DESIGN CHOICE,
log entry 14). -/
def decodeLoop (bias : OvfBias) (f : Operands) : Nat → Nat → U64 → Response
  | 0, _, _ => shortResponse
  | n + 1, i, acc =>
    match examine bias f i acc with
    | .stop r => r
    | .more a => decodeLoop bias f n (i + 1) a

/-- `decode(buf_r, avail_r)` (R92). -/
def decodeVarint (bias : OvfBias) (f : Operands) : Response := decodeLoop bias f 10 0 0

/-- Whether a check of R100 ends the decode at index i. -/
def stopsAt (f : Operands) (i : Nat) : Bool :=
  shortBuffer f i || overflowAt i (memRead f i) || !cont (memRead f i)

/-- R102's priority chain: the first index at which R100 ends the decode (DEDUCED, log entry 17). -/
def stopIndex (f : Operands) : Nat := ((List.range 10).find? (stopsAt f)).getD 9

/-- The OR of the shifted groups of bytes 0 to n - 1 (R63). -/
def orGroups (f : Operands) (n : Nat) : U64 :=
  (List.range n).foldl (fun a j => a ||| sh (memRead f j) j) 0

/-- The UNROLLED datapath (R102): all ten indices at once, the priority chain picks the response. -/
def unrolledResponse (bias : OvfBias) (f : Operands) : Response :=
  let t := stopIndex f
  if shortBuffer f t then shortResponse
  else if overflowAt t (memRead f t) then overflowResponse bias
  else okResponse (orGroups f (t + 1)) (t + 1)

/-- One busy edge of the ITERATIVE decoder (R103), on the byte index `idx` and the accumulator `acc`. -/
def State.decodeIterate (s : State) (f : Operands) : State :=
  match examine s.params.ovfBias f s.idx.toNat s.acc with
  | .stop r => s.finish r
  | .more a => { s.stayBusy with acc := a, idx := s.idx + 1 }

/-- `DECODE len=n [b0..b9]`: the busy edge of the configured `DECODE_STRATEGY` (R29, R92). A block that is not ITERATIVE
holds `acc` and `idx`, which R20 does not ask of it (DESIGN CHOICE, log entry 19 for UNROLLED, 8 for `other`). -/
def execDecode (f : Operands) (s : State) : Host.Outcome State Fault Refusal :=
  match s.params.decodeStrategy with
  | .unrolled => .next (s.finish (unrolledResponse s.params.ovfBias f))
  | .iterative => .next (s.decodeIterate f)
  | .other => .next (s.finishOrWait (decodeVarint s.params.ovfBias f))

end Sys2Proof.Machine
end

