-- ==== Sys2Proof/Machine/Dispatch.lean ====
section
/-! DEFINITION. One arm per row of the opcode table: the busy edge of the unit the request selects (R29, R57). -/

namespace Sys2Proof.Machine

def exec (i : Instr) (s : State) : Host.Outcome State Fault Refusal :=
  match i with
  | .decode f => Sys2Proof.Machine.execDecode f s
  | .size f => Sys2Proof.Machine.execSize f s
  | .rsvd2 f => Sys2Proof.Machine.execRsvd2 f s
  | .rsvd3 f => Sys2Proof.Machine.execRsvd3 f s

end Sys2Proof.Machine
end

