-- ==== Sys2Proof/Machine/Step.lean ====
section
/-! DEFINITION. One step: one rising edge of `clk` (R8). Reset wins (R137), then the busy step (R29), acceptance (R28), idle (R26). -/

namespace Sys2Proof.Machine

/-- What an edge adds around `exec`: the host drives its next levels. -/
def tickOutcome : Host.Outcome State Fault Refusal → Host.Outcome State Fault Refusal
  | .next t => .next t.tick
  | .fault r => .fault r
  | .refused r => .refused r

/-- One rising edge (DEDUCED, log entry 1). While BUSY the request comes from the operand latches (R19), never from the
ports. -/
def step (s : State) : Host.Outcome State Fault Refusal :=
  if s.ports.rst then .next s.resetEdge.tick
  else if s.busy then tickOutcome (exec s.latched s)
  else if s.ports.reqValid then .next (s.accept s.ports).tick
  else .next s.tick

/-- The state in which the very next step runs the request with REQ word w: the one its acceptance edge leaves (R28),
with `rst` low at the next edge (DESIGN CHOICE, log entry 6). -/
def State.withFetchWord (s : State) (nbits w : Nat) : State :=
  let t := (s.accept (InPorts.offering (BitVec.ofNat 150 (w % 2 ^ nbits)))).tick
  { t with ports := { s.ports with rst := false }, script := s.script }

end Sys2Proof.Machine
end

