-- ==== Sys2Proof/Machine/WireFormat.lean ====
section
/-! DEFINITION. The varint wire format and the test-bench functions of the spec: the value of a sequence and the
canonical encoder (R61 to R64). The block does not encode (R4). -/

namespace Sys2Proof.Machine

/-- An encoded varint (R61): every byte but the last has bit 7 set, the last has it clear. -/
def isVarint : List Byte → Bool
  | [] => false
  | [b] => !cont b
  | b :: bs => cont b && isVarint bs

/-- The encoded length, found only by scanning (R62): one plus the index of the first byte with bit 7 clear. -/
def scanLength (bs : List Byte) : Option Nat := (bs.findIdx? (fun b => !cont b)).map (· + 1)

/-- `V(b_j ..)` from position j on (R63): the OR of the shifted groups. -/
def valueFrom (j : Nat) : List Byte → U64
  | [] => 0
  | b :: bs => sh b j ||| valueFrom (j + 1) bs

/-- `V(b_0 .. b_(n-1))` (R63). -/
def varintValue (bs : List Byte) : U64 := valueFrom 0 bs

/-- R64's loop with at most n + 1 bytes to write: `v[6:0]`, with the continuation bit while the rest is not 0. -/
def encFrom : Nat → U64 → List Byte
  | 0, v => [(v.extractLsb' 0 7).setWidth 8]
  | n + 1, v =>
    if v >>> 7 ≠ 0 then (0x80#8 ||| (v.extractLsb' 0 7).setWidth 8) :: encFrom n (v >>> 7)
    else [(v.extractLsb' 0 7).setWidth 8]

/-- `Enc(v)` (R64): a u64 has at most ten groups, so nine rounds leave a last byte (R65). -/
def enc (v : U64) : List Byte := encFrom 9 v

/-- How a host presents a software buffer (R34, R38, R60): its first ten bytes, and its length, 15 standing for any
longer one (DEDUCED, log entry 12). -/
def presentBuffer (bytes : List Byte) : Operands :=
  { x := 0, buf := Window.ofList bytes, len := BitVec.ofNat 4 (min bytes.length 15) }

end Sys2Proof.Machine
end

