-- ==== Sys2Proof/Machine/HostProgram.lean ====
section
/-! DEFINITION. The host's side of the handshake: resetting the block, serving one request, running a program of requests
(R157, R159 to R162, R165). -/

namespace Sys2Proof.Machine

/-- One edge with the given levels on the input ports. -/
def edgeWith (p : InPorts) (s : State) : Host.Outcome State Fault Refusal := step { s with ports := p }

/-- The levels of a host that resets the block. -/
def InPorts.resetting : InPorts := { InPorts.quiet with rst := true }

/-- Boot (R157): one edge with `rst = 1`, after which the host drives `rst = 0`. -/
def boot (s : State) : Host.Outcome State Fault Refusal :=
  match edgeWith InPorts.resetting s with
  | .next t => .next { t with ports := InPorts.quiet }
  | .fault r => .fault r
  | .refused r => .refused r

/-- Edges without a request or reset until `done` rises, n at most (R160). -/
def awaitDone : Nat → State → Host.Outcome State Fault Refusal
  | 0, s => .next s
  | n + 1, s =>
    if s.done then .next s
    else
      match edgeWith InPorts.quiet s with
      | .next t => awaitDone n t
      | .fault r => .fault r
      | .refused r => .refused r

/-- The host offers a request at one edge and waits for its response, `LAT_MAX` busy edges at most (R162). -/
def serve (i : Instr) (s : State) : Host.Outcome State Fault Refusal :=
  match edgeWith (InPorts.offering (encode i)) s with
  | .next t => awaitDone t.params.latMax t
  | .fault r => .fault r
  | .refused r => .refused r

/-- A host program (R165; the policy is a DESIGN CHOICE, log entry 13): requests one after another, each response read with `done = 1` before the next request is
offered (R161). The answer is the responses in order and the state after the last one is posted. -/
def runProgram : List Instr → State → Host.Outcome (List Rsp × State) Fault Refusal
  | [], s => .next ([], s)
  | i :: rest, s =>
    match serve i s with
    | .next t =>
      match runProgram rest t with
      | .next (rs, u) => .next (t.hostRead :: rs, u)
      | .fault r => .fault r
      | .refused r => .refused r
    | .fault r => .fault r
    | .refused r => .refused r

end Sys2Proof.Machine
end

