-- ==== Sys2Proof/Machine/HostTag.lean ====
section
/-! DEFINITION. The host-side tag parser: reference rules for host software, no operation of the block (R121 to R125). -/

namespace Sys2Proof.Machine

/-- `(fieldNumber: i64, wireType: u8, consumed: i32)` (R121). -/
structure Tag where
  fieldNumber : BitVec 64
  wireType    : BitVec 8
  consumed    : BitVec 32
  deriving DecidableEq, Repr

/-- The all-zero triple of every rejection (R125). -/
def Tag.rejected : Tag := { fieldNumber := 0, wireType := 0, consumed := 0 }

/-- A field tag is `(fieldNumber << 3) | wireType` (R122). -/
def tagValue (fieldNumber : U64) (wireType : BitVec 3) : U64 := fieldNumber <<< 3 ||| wireType.setWidth 64

/-- What the host makes of a DECODE response (R121). The tests on `fieldNumber` read it as an `i64`. -/
def parseTagResponse (r : Response) : Tag :=
  let wireType := r.value &&& 0x7
  let fieldNumber := r.value >>> 3
  if r.count ≤ 0 then Tag.rejected
  else if fieldNumber.toInt ≤ 0 ∨ 5 < wireType.toNat then Tag.rejected
  else { fieldNumber := fieldNumber, wireType := wireType.setWidth 8, consumed := toI32 r.count }

/-- `parseTag(buf)`: DECODE on the buffer, then the checks (R121). -/
def parseTag (bias : OvfBias) (buf : List Byte) : Tag :=
  parseTagResponse (decodeVarint bias (presentBuffer buf))

end Sys2Proof.Machine
end

