-- ==== Sys2Proof/Machine/Transaction.lean ====
section
/-! DEFINITION. The transaction level: the function from a request to its response (R12), normative for every implementation. -/

namespace Sys2Proof.Machine

/-- The response of a request: R92 for DECODE, R76 for SIZE, R116 for the reserved op codes. It is a function of the
request and `OVF_BIAS` alone (R48). -/
def respond (bias : OvfBias) : Instr → Response
  | .decode f => decodeVarint bias f
  | .size f => sizeResponse (size f.x)
  | .rsvd2 _ => illegalResponse
  | .rsvd3 _ => illegalResponse

/-- The busy edge at which a reference implementation posts a request's response (R163). -/
def referenceLatency (p : Params) : Instr → Nat
  | .decode f => if p.decodeStrategy = .iterative then stopIndex f + 1 else 1
  | .size f => if p.sizeStrategy = .iterative then size f.x else 1
  | .rsvd2 _ => 1
  | .rsvd3 _ => 1

end Sys2Proof.Machine
end

