-- ==== Sys2Proof/Safety.lean ====
section
/-! DEFINITION. The terms claims are stated in: runs of edges, what the host drives during them, a posted response, and the
invariant of the reachable states. -/

namespace Sys2Proof.Machine

/-- n rising edges of the machine. -/
def edges (n : Nat) (s : State) : Host.Outcome State Fault Refusal := Host.Core.run Sys2Proof.core n s

/-- The levels the host drives at the next edges, as far as the script says; at later ones it is quiet. -/
def State.levels (s : State) : List InPorts := s.ports :: s.script

/-- The host does not reset the block at the next n edges. -/
abbrev State.NoResetFor (s : State) (n : Nat) : Prop := ∀ p ∈ s.levels.take n, p.rst = false

/-- The host neither resets the block nor offers a request at the next n edges. -/
abbrev State.QuietFor (s : State) (n : Nat) : Prop :=
  ∀ p ∈ s.levels.take n, p.rst = false ∧ p.reqValid = false

/-- The condition of an acceptance edge (R28). -/
abbrev State.Accepts (s : State) : Prop :=
  s.ports.rst = false ∧ s.busy = false ∧ s.ports.reqValid = true

/-- The response r is posted: the block is in DONE and the result registers hold r (R16, R30). -/
abbrev State.Posts (s : State) (r : Response) : Prop :=
  s.busy = false ∧ s.done = true ∧ s.rsp = r.toRsp

/-- The block is BUSY (R16). -/
abbrev State.InFlight (s : State) : Prop := s.busy = true ∧ s.done = false

/-- The operands in the latches (R19). -/
def State.latchedOperands (s : State) : Operands := { x := s.xR, buf := s.bufR, len := s.availR }

/-- Where the ITERATIVE decoder stands: bytes 0 to idx - 1 are examined, each valid and continuing, and `acc` holds
their groups (R97, R103). -/
structure State.Decoding (s : State) : Prop where
  edges_spent : s.waited = s.idx.toNat
  examined    : s.idx.toNat ≤ avail s.latchedOperands
  continuing  : ∀ j < s.idx.toNat, cont (memRead s.latchedOperands j) = true
  accumulated : s.acc = orGroups s.latchedOperands s.idx.toNat

/-- Where the ITERATIVE bit counter stands: "At the j-th busy edge, `sz_rem = x >> (7(j-1))` and `sz_cnt = j - 1`" (R80). -/
structure State.Sizing (s : State) : Prop where
  edges_spent : s.waited = s.szCnt.toNat
  remainder   : s.szRem = s.xR >>> (7 * s.szCnt.toNat)
  not_done    : s.szCnt = 0 ∨ s.szRem ≠ 0

/-- The invariant of the states that runs reach after a reset edge. Power-up may start outside it (R156). -/
structure State.Inv (s : State) : Prop where
  /-- The parameters are legal (R5, R81, R105, as log entry 20 reads them). -/
  legal : s.params.Legal
  /-- `busy = 1, done = 1` is unreachable (R17). -/
  phases : ¬(s.busy = true ∧ s.done = true)
  /-- `avail_r` is "a value in 0..10" (R19). -/
  avail_range : s.busy = true → s.availR.toNat ≤ 10
  /-- `idx`: "legal values while BUSY are 0..9" (R20). -/
  idx_range : s.busy = true → s.idx.toNat ≤ 9
  /-- `sz_cnt`: "legal values 0..9 while BUSY" (R21). -/
  szCnt_range : s.busy = true → s.szCnt.toNat ≤ 9
  /-- Fewer than `LAT_MAX` busy edges have passed without `finish` (R29). -/
  bounded : s.busy = true → s.waited < s.params.latMax
  /-- The iterative decoder's registers agree with the bytes it has examined (R97, R103). -/
  decoding : s.busy = true → s.opR = 0b00#2 → s.params.decodeStrategy = .iterative → s.Decoding
  /-- The iterative counter's registers agree with the shifts it has done (R80). -/
  sizing : s.busy = true → s.opR = 0b01#2 → s.params.sizeStrategy = .iterative → s.Sizing
  /-- "While `done = 1` they hold the response of the last accepted request" (R22), the one still in the latches. -/
  posted : s.done = true → s.rsp = (respond s.params.ovfBias s.latched).toRsp

end Sys2Proof.Machine
end

