-- ==== Sys2Proof/Certificates/Slice0/Obligations.lean ====
section
/-! DEFINITION. The statements for the provers, each from a rule of spec/ named in its docstring. -/

open Sys2Proof Sys2Proof.Machine

/-! ### The request encoding -/

/-- No bit of a request is lost: R53's layout, read back, gives every operand of every request kind. -/
def Obligations.EncodedRequestDecodesToItself : Prop :=
  ∀ i : Instr, decodeReq (encode i) = i

/-- Each of the 2^150 REQ words has one meaning (R58): encoding what was decoded gives the word back. -/
def Obligations.DecodedWordEncodesToItself : Prop :=
  ∀ w : BitVec 150, encode (decodeReq w) = w

/-- The 19 bytes of a request are the model's own (DESIGN CHOICE, log entry 7); they decode to the request, and what
follows them is left over. -/
def Obligations.EncodedBytesDecodeToTheRequest : Prop :=
  ∀ (i : Instr) (rest : List Byte), decodeBytes (encodeBytes i ++ rest) = .request i rest

/-- R53: the REQ word as a number, its four fields, and the ports, which carry the same fields in parallel. -/
def Obligations.ReqWordIsItsFieldsShifted : Prop :=
  (∀ i : Instr,
    (encode i).toNat =
        i.op.toNat ||| (i.fields.x.toNat <<< 2) ||| ((Window.toPort i.fields.buf).toNat <<< 66) |||
          (i.fields.len.toNat <<< 146) ∧
      (encode i).extractLsb' 0 2 = i.op ∧
      (encode i).extractLsb' 2 64 = i.fields.x ∧
      (∀ (k : Nat) (h : k < 10), (encode i).extractLsb' (66 + 8 * k) 8 = i.fields.buf[k]) ∧
      (encode i).extractLsb' 146 4 = i.fields.len) ∧
    ∀ p : InPorts, decodeReq p.word = p.offered

/-- R43: window byte i at `req_buf[8i+7 : 8i]`, and the port as the sum of the bytes' weights. -/
def Obligations.WindowBytesOnThePort : Prop :=
  (∀ (p : BitVec 80) (k : Nat) (h : k < 10), (Window.ofPort p)[k] = p.extractLsb' (8 * k) 8) ∧
    (∀ w : Window, (Window.toPort w).toNat = ∑ k : Fin 10, w[k].toNat * 2 ^ (8 * (k : Nat))) ∧
    ∀ p : BitVec 80,
      p.extractLsb' 0 16 = 0x0180#16 ↔ (Window.ofPort p)[0] = 0x80#8 ∧ (Window.ofPort p)[1] = 0x01#8

/-- R57: the op code selects the operation, whatever the other fields hold. -/
def Obligations.OpCodeSelectsTheOperation : Prop :=
  ∀ w : BitVec 150,
    (w.extractLsb' 0 2 = 0b00#2 → decodeReq w = .decode (reqOperands w)) ∧
      (w.extractLsb' 0 2 = 0b01#2 → decodeReq w = .size (reqOperands w)) ∧
      (w.extractLsb' 0 2 = 0b10#2 → decodeReq w = .rsvd2 (reqOperands w)) ∧
      (w.extractLsb' 0 2 = 0b11#2 → decodeReq w = .rsvd3 (reqOperands w))

/-- REQ words of 95_test_vectors.md, one of each kind, decode to the requests they stand for. -/
def Obligations.SampleReqWordsDecode : Prop :=
  decodeReq 0x0800000000000000000AB00000000000000000#150 =
      .decode { x := 0, buf := #v[0xAC, 0x02, 0, 0, 0, 0, 0, 0, 0, 0], len := 2 } ∧
    decodeReq 0x000000000000000000000000000000000004B1#150 =
      .size { x := 300, buf := #v[0, 0, 0, 0, 0, 0, 0, 0, 0, 0], len := 0 } ∧
    decodeReq 0x00000000000000000000000000000000000002#150 =
      .rsvd2 { x := 0, buf := #v[0, 0, 0, 0, 0, 0, 0, 0, 0, 0], len := 0 } ∧
    decodeReq 0x3FFFFFFFFFFFFFFFFFFFFFFFFFFFFFFFFFFFFF#150 =
      .rsvd3
        { x := 0xFFFFFFFFFFFFFFFF
          buf := #v[0xFF, 0xFF, 0xFF, 0xFF, 0xFF, 0xFF, 0xFF, 0xFF, 0xFF, 0xFF], len := 15 }

/-- R54: the fields of the RSP word, and the `rsp_*` ports that carry them; the status codes are those of R23, to which
the rule refers. -/
def Obligations.RspWordFields : Prop :=
  (∀ s : State,
    s.rsp.word.extractLsb' 0 64 = s.outputs.rspValue ∧
      s.rsp.word.extractLsb' 64 32 = s.outputs.rspCount ∧
      s.rsp.word.extractLsb' 96 2 = s.outputs.rspStatus ∧
      s.outputs.rspValue = s.resValue ∧ s.outputs.rspCount = s.resCount) ∧
    ∀ s : State,
      (s.outputs.rspStatus = 0b00#2 ↔ s.resStatus = .ok) ∧
        (s.outputs.rspStatus = 0b01#2 ↔ s.resStatus = .short) ∧
        (s.outputs.rspStatus = 0b10#2 ↔ s.resStatus = .overflow) ∧
        (s.outputs.rspStatus = 0b11#2 ↔ s.resStatus = .illegal)

/-- R68: what each text form that lists at most ten bytes denotes, and the rule's example. -/
def Obligations.TextFormsDenoteReqWords : Prop :=
  (∀ (n : Nat) (bytes : List Nat), n < 16 → bytes.length ≤ 10 → (∀ b ∈ bytes, b < 256) →
    ∃ i, Source.assemble (.decodeLen n bytes) = some i ∧
      (encode i).toNat =
        0 ||| ((bytes.zipIdx.map fun b => b.1 * 2 ^ (8 * b.2)).sum <<< 66) ||| (n <<< 146)) ∧
    (∀ bytes : List Nat, bytes.length ≤ 10 → (∀ b ∈ bytes, b < 256) →
      ∃ i, Source.assemble (.decodeList bytes) = some i ∧
        (encode i).toNat =
          0 ||| ((bytes.zipIdx.map fun b => b.1 * 2 ^ (8 * b.2)).sum <<< 66) ||| (bytes.length <<< 146)) ∧
    (∀ x : Nat, x < 2 ^ 64 →
      ∃ i, Source.assemble (.size x) = some i ∧ (encode i).toNat = 1 ||| (x <<< 2)) ∧
    (∃ i, Source.assemble .rsvd2 = some i ∧ (encode i).toNat = 2) ∧
    (∃ i, Source.assemble .rsvd3 = some i ∧ (encode i).toNat = 3) ∧
    ∃ i, Source.assemble (.decodeList [0x80, 0x01]) = some i ∧
      (encode i).toNat = (0x0180 <<< 66) ||| (2 <<< 146) ||| 0

/-- R60: `avail = min(req_len, 10)`, and the six values 10..15 give the same edge for the same window, in every state. -/
def Obligations.LengthsFromTenMeanTen : Prop :=
  (∀ f : Operands, avail f = min f.len.toNat 10) ∧
    (∀ l : BitVec 4, (availBits l).toNat = min l.toNat 10) ∧
    ∀ (x : U64) (b : Window) (l l' : BitVec 4) (s : State), 10 ≤ l.toNat → 10 ≤ l'.toNat →
      exec (.decode { x := x, buf := b, len := l }) s = exec (.decode { x := x, buf := b, len := l' }) s

/-- The consequence R55 draws: a field an operation does not read changes nothing about its edge. -/
def Obligations.UnreadFieldsChangeNothing : Prop :=
  ∀ (f g : Operands) (s : State),
    (f.buf = g.buf → f.len = g.len → exec (.decode f) s = exec (.decode g) s) ∧
      (f.x = g.x → exec (.size f) s = exec (.size g) s) ∧
      exec (.rsvd2 f) s = exec (.rsvd2 g) s ∧
      exec (.rsvd3 f) s = exec (.rsvd3 g) s

/-! ### SIZE -/

/-- R76: the least class whose bound is not below x, 1 to 10, and the response `(0, size(x), OK)`. -/
def Obligations.SizeIsTheLeastClass : Prop :=
  (∀ x : U64,
    (∀ k, 1 ≤ k → k ≤ 9 →
      (size x = k ↔ x.toNat ≤ 2 ^ (7 * k) - 1 ∧ ∀ j, 1 ≤ j → j < k → ¬x.toNat ≤ 2 ^ (7 * j) - 1)) ∧
      (size x = 10 ↔ ∀ k, 1 ≤ k → k ≤ 9 → ¬x.toNat ≤ 2 ^ (7 * k) - 1) ∧
      1 ≤ size x ∧ size x ≤ 10) ∧
    (∀ (bias : OvfBias) (f : Operands) (s : State),
      respond bias (.size f) = { value := 0, count := (size f.x : Int), status := .ok } ∧
        (s.finish (respond bias (.size f))).resStatus = .ok ∧
        (s.finish (respond bias (.size f))).resValue = 0 ∧
        (s.finish (respond bias (.size f))).resCount = toI32 (size f.x)) ∧
    size 0 = 1 ∧ size 0x7FFFFFFFFFFFFFFF = 9 ∧ size 0x8000000000000000 = 10 ∧
    size 0xFFFFFFFFFFFFFFFF = 10 ∧ size 300 = 2

/-- R77: the ten bounds, and class k as the range above `T_(k-1)` up to and including `T_k`. -/
def Obligations.SizeClassesAndTheirBounds : Prop :=
  threshold 1 = 0x7F ∧ threshold 2 = 0x3FFF ∧ threshold 3 = 0x1FFFFF ∧ threshold 4 = 0xFFFFFFF ∧
    threshold 5 = 0x7FFFFFFFF ∧ threshold 6 = 0x3FFFFFFFFFF ∧ threshold 7 = 0x1FFFFFFFFFFFF ∧
    threshold 8 = 0xFFFFFFFFFFFFFF ∧ threshold 9 = 0x7FFFFFFFFFFFFFFF ∧
    threshold 10 = 0xFFFFFFFFFFFFFFFF ∧
    ∀ (x : U64) (k : Nat), 1 ≤ k → k ≤ 10 →
      (size x = k ↔ (k = 1 ∨ threshold (k - 1) < x.toNat) ∧ x.toNat ≤ threshold k)

/-- R83: the class changes exactly at each bound. -/
def Obligations.SizeAtEveryBound : Prop :=
  (∀ k, 1 ≤ k → k ≤ 9 →
    size (BitVec.ofNat 64 (threshold k)) = k ∧ size (BitVec.ofNat 64 (threshold k + 1)) = k + 1) ∧
    size 0 = 1 ∧ size (BitVec.ofNat 64 (2 ^ 64 - 1)) = 10

/-- The closed form R82 derives: size is the bit length over 7, rounded up, at least 1; so it is monotone. -/
def Obligations.SizeIsSevenBitGroupsOfTheBitLength : Prop :=
  (∀ x : U64,
    size x = max 1 (((if x = 0 then 0 else Nat.log2 x.toNat + 1) + 6) / 7)) ∧
    ∀ x y : U64, x.toNat ≤ y.toNat → size x ≤ size y

/-- R79: the comparators `x_r <= T_k` are monotone; a FLAT busy edge finishes with the least k whose comparator is 1, 10
when none is, which is ten minus how many are 1, and changes nothing else. That the FLAT block holds `sz_rem` and
`sz_cnt`, and one that is not ITERATIVE `acc` and `idx`, is the model's choice (log entry 19). -/
def Obligations.FlatSizeEdgeFinishes : Prop :=
  (∀ (x : U64) (k : Nat), x.toNat ≤ threshold k → x.toNat ≤ threshold (k + 1)) ∧
    ∀ (f : Operands) (s : State), s.params.sizeStrategy = .flat →
      ∃ k, 1 ≤ k ∧ k ≤ 10 ∧
        (k ≤ 9 → f.x.toNat ≤ threshold k) ∧
        (∀ j, 1 ≤ j → j < k → ¬f.x.toNat ≤ threshold j) ∧
        k = 10 - ([1, 2, 3, 4, 5, 6, 7, 8, 9].map fun j => if f.x.toNat ≤ threshold j then 1 else 0).sum ∧
        exec (.size f) s =
          .next { s with resValue := 0, resCount := toI32 k, resStatus := .ok, busy := false, done := true }

/-- The transaction-level contract of SIZE (R76) is what a FLAT edge posts; with it the frame, since the next state is
given whole. That datapath registers the strategies need not hold are held is the model's choice (log entry 19). -/
def Obligations.FlatSizePostsTheContract : Prop :=
  ∀ (f : Operands) (s : State), s.params.sizeStrategy = .flat →
    exec (.size f) s =
      .next
        { s with
          resValue := 0, resCount := toI32 (size f.x), resStatus := .ok, busy := false, done := true }

/-- R80: the registers acceptance loads; what they hold before the j-th busy edge; that `size(x)` is the least j with
`x >> (7j) = 0`; and the edge: shift, then test, finish with `sz_cnt + 1` on zero, else go on. The result registers are
unspecified while the block stays BUSY. That a decoder that is not ITERATIVE holds `acc` and `idx` is the model's choice
(log entries 8 and 19). -/
def Obligations.IterativeSizeEdge : Prop :=
  (∀ (s : State) (p : InPorts), (s.accept p).szRem = p.reqX ∧ (s.accept p).szCnt = 0) ∧
    (∀ s : State, s.Accepts → s.ports.reqOp = 0b01#2 → s.params.sizeStrategy = .iterative →
      ∀ j, 1 ≤ j → j ≤ size s.ports.reqX → s.NoResetFor j →
        ∃ u, edges j s = .next u ∧ u.busy = true ∧
          u.szRem = s.ports.reqX >>> (7 * (j - 1)) ∧ u.szCnt.toNat = j - 1 ∧ j - 1 ≤ 9) ∧
    (∀ x : U64, x >>> (7 * size x) = 0 ∧ ∀ j, 1 ≤ j → j < size x → x >>> (7 * j) ≠ 0) ∧
    ∀ (f : Operands) (s : State), s.params.sizeStrategy = .iterative →
      (s.szRem >>> 7 = 0 →
        exec (.size f) s =
          .next
            { s with
              resValue := 0, resCount := toI32 (s.szCnt.toNat + 1 : Nat), resStatus := .ok
              busy := false, done := true }) ∧
        (s.szRem >>> 7 ≠ 0 →
          ∃ v c st,
            exec (.size f) s =
              .next
                { s with
                  szRem := s.szRem >>> 7, szCnt := s.szCnt + 1
                  resValue := v, resCount := c, resStatus := st, waited := s.waited + 1 })

/-- R78, on the machine: after a SIZE request is accepted, the FLAT block posts `(0, size(x), OK)` at the 1st busy edge
and the ITERATIVE block posts the same at the `size(x)`-th. -/
def Obligations.SizeStrategiesPostTheSameResponse : Prop :=
  ∀ s : State, s.Accepts → s.ports.reqOp = 0b01#2 → s.NoResetFor (size s.ports.reqX + 1) →
    (s.params.sizeStrategy = .flat →
      ∃ t, edges 2 s = .next t ∧ t.Posts { value := 0, count := (size s.ports.reqX : Int), status := .ok }) ∧
      (s.params.sizeStrategy = .iterative →
        (∀ k, 1 ≤ k → k ≤ size s.ports.reqX → ∃ u, edges k s = .next u ∧ u.InFlight) ∧
          ∃ t, edges (size s.ports.reqX + 1) s = .next t ∧
            t.Posts { value := 0, count := (size s.ports.reqX : Int), status := .ok })

/-! ### DECODE -/

/-- R92: the response by the first index that ends the decode: a terminating byte, the end of the valid bytes, or a
tenth byte above 0x01; one of the three always holds; what `finish` writes; and the rule's example. -/
def Obligations.DecodeResponseByCases : Prop :=
  (∀ (bias : OvfBias) (f : Operands),
    (∀ n, 1 ≤ n → n ≤ avail f → (∀ j, j + 1 < n → cont (memRead f j) = true) →
      cont (memRead f (n - 1)) = false → (n = 10 → (memRead f 9).toNat ≤ 1) →
        respond bias (.decode f) =
          { value := varintValue (f.buf.toList.take n), count := (n : Int), status := .ok }) ∧
      (avail f ≤ 9 → (∀ j, j < avail f → cont (memRead f j) = true) →
        respond bias (.decode f) = { value := 0, count := 0, status := .short }) ∧
      (avail f = 10 → (∀ j, j < 9 → cont (memRead f j) = true) → 1 < (memRead f 9).toNat →
        respond bias (.decode f) = { value := 0, count := -(9 + OvfBias.num bias), status := .overflow }) ∧
      ((∃ n, 1 ≤ n ∧ n ≤ avail f ∧ (∀ j, j + 1 < n → cont (memRead f j) = true) ∧
          cont (memRead f (n - 1)) = false ∧ (n = 10 → (memRead f 9).toNat ≤ 1)) ∨
        (avail f ≤ 9 ∧ ∀ j, j < avail f → cont (memRead f j) = true) ∨
        (avail f = 10 ∧ (∀ j, j < 9 → cont (memRead f j) = true) ∧ 1 < (memRead f 9).toNat))) ∧
    (∀ (bias : OvfBias) (f : Operands) (s : State),
      (s.finish (respond bias (.decode f))).resValue = (respond bias (.decode f)).value ∧
        (s.finish (respond bias (.decode f))).resCount = toI32 (respond bias (.decode f)).count ∧
        (s.finish (respond bias (.decode f))).resStatus = (respond bias (.decode f)).status) ∧
    ∀ bias : OvfBias,
      respond bias (.decode { x := 0, buf := #v[0x80, 0x01, 0, 0, 0, 0, 0, 0, 0, 0], len := 2 }) =
        { value := 128, count := 2, status := .ok }

/-- The laws R106 derives for an OK response `(v, n, OK)` of DECODE. -/
def Obligations.DecodeOkLaws : Prop :=
  ∀ (bias : OvfBias) (f : Operands) (v : U64) (c : Int),
    decodeVarint bias f = { value := v, count := c, status := .ok } →
      ∃ n : Nat, c = n ∧ 1 ≤ n ∧ n ≤ 10 ∧ n ≤ avail f ∧
        (∀ j, j + 1 < n → cont (memRead f j) = true) ∧ cont (memRead f (n - 1)) = false ∧
        v = varintValue (f.buf.toList.take n) ∧
        (n ≤ 9 → v.toNat < 2 ^ (7 * n)) ∧
        (n = 10 → v.getLsbD 63 = (memRead f 9).getLsbD 0)

/-- R131: the four response kinds, with their status codes, causes, counts and values. -/
def Obligations.EveryRequestHasOneResponseKind : Prop :=
  (Status.code .ok = 0b00#2 ∧ Status.code .short = 0b01#2 ∧ Status.code .overflow = 0b10#2 ∧
    Status.code .illegal = 0b11#2) ∧
  ∀ (bias : OvfBias) (i : Instr),
    ((respond bias i).status = .ok →
      1 ≤ (respond bias i).count ∧ (respond bias i).count ≤ 10 ∧ (i.op = 0b00#2 ∨ i.op = 0b01#2) ∧
        (i.op = 0b00#2 →
          (respond bias i).value = varintValue (i.fields.buf.toList.take (respond bias i).count.toNat)) ∧
        (i.op = 0b01#2 → (respond bias i).value = 0)) ∧
      ((respond bias i).status = .short ↔
        i.op = 0b00#2 ∧ avail i.fields ≤ 9 ∧ ∀ j, j < avail i.fields → cont (memRead i.fields j) = true) ∧
      ((respond bias i).status = .short → (respond bias i).count = 0 ∧ (respond bias i).value = 0) ∧
      ((respond bias i).status = .overflow ↔
        i.op = 0b00#2 ∧ avail i.fields = 10 ∧ (∀ j, j < 9 → cont (memRead i.fields j) = true) ∧
          1 < (memRead i.fields 9).toNat) ∧
      ((respond bias i).status = .overflow →
        (respond bias i).count = -(9 + OvfBias.num bias) ∧ (respond bias i).value = 0) ∧
      ((respond bias i).status = .illegal ↔ i.op = 0b10#2 ∨ i.op = 0b11#2) ∧
      ((respond bias i).status = .illegal → (respond bias i).count = 0 ∧ (respond bias i).value = 0)

/-- The consequence R134 draws: for DECODE, the sign of the posted 32-bit count tells the status. -/
def Obligations.DecodeCountTellsTheStatus : Prop :=
  ∀ (bias : OvfBias) (f : Operands),
    ((decodeVarint bias f).status = .ok ↔ 0 < (decodeVarint bias f).toRsp.count.toInt) ∧
      ((decodeVarint bias f).status = .short ↔ (decodeVarint bias f).toRsp.count.toInt = 0) ∧
      ((decodeVarint bias f).status = .overflow ↔ (decodeVarint bias f).toRsp.count.toInt < 0)

/-- R40: the response depends only on avail and on the valid bytes up to the index where DECODE stops. -/
def Obligations.BytesPastTheStopDoNotMatter : Prop :=
  ∀ (bias : OvfBias) (f g : Operands), avail f = avail g →
    (∀ j, j ≤ min (stopIndex f) (avail f - 1) → j < avail f → memRead f j = memRead g j) →
      respond bias (.decode f) = respond bias (.decode g)

/-- R95: the shift truncated to 64 bits; no bit of the group is lost up to index 8; at index 9 only bit 0 lands, at
bit 63, and a byte the overflow checker lets pass has no other. -/
def Obligations.ByteShifterPlacesTheGroup : Prop :=
  (∀ (b : Byte) (i : Nat), i ≤ 9 → (sh b i).toNat = b.toNat % 128 * 2 ^ (7 * i) % 2 ^ 64) ∧
    (∀ (b : Byte) (i : Nat), i ≤ 8 → (sh b i).toNat = b.toNat % 128 * 2 ^ (7 * i)) ∧
    (∀ b : Byte, (sh b 9).toNat = b.toNat % 2 * 2 ^ 63) ∧
    ∀ b : Byte, overflowAt 9 b = false → (sh b 9).toNat = b.toNat * 2 ^ 63

/-- R97 and R101: the accumulator starts at 0 and takes in each byte that passes the checks; the OR equals the sum; after
bytes 0 to i it is zero from bit 7(i+1) up; and a failure response discards it, with value 0. -/
def Obligations.AccumulatedGroupsAreASum : Prop :=
  (∀ f : Operands, orGroups f 0 = 0) ∧
    (∀ (bias : OvfBias) (f : Operands) (i : Nat) (a : U64),
      shortBuffer f i = false → overflowAt i (memRead f i) = false →
        examine bias f i a =
          if cont (memRead f i) then .more (a ||| sh (memRead f i) i)
          else .stop { value := a ||| sh (memRead f i) i, count := ((i + 1 : Nat) : Int), status := .ok }) ∧
    (∀ (f : Operands) (i : Nat), i ≤ 9 →
      orGroups f (i + 1) = orGroups f i ||| sh (memRead f i) i ∧
        (orGroups f (i + 1)).toNat = (orGroups f i).toNat + (sh (memRead f i) i).toNat ∧
        (i ≤ 8 → (orGroups f (i + 1)).toNat < 2 ^ (7 * (i + 1)))) ∧
    ∀ (bias : OvfBias) (f : Operands), (decodeVarint bias f).status ≠ .ok → (decodeVarint bias f).value = 0

/-- R96: the overflow checker, both forms of its test, and where it is idle. -/
def Obligations.OverflowCheckerAtTheTenthByte : Prop :=
  (∀ b : Byte, overflowAt 9 b = (b.getLsbD 7 || b.extractLsb' 1 6 != 0)) ∧
    (∀ (b : Byte) (i : Nat), i < 9 → overflowAt i b = false) ∧
    ∀ (bias : OvfBias) (f : Operands) (a : U64), shortBuffer f 9 = false → 1 < (memRead f 9).toNat →
      examine bias f 9 a = .stop { value := 0, count := -(9 + OvfBias.num bias), status := .overflow }

/-- R98: the overflow count under both values of the parameter, as the 32-bit pattern the port shows, and the same for
every window that overflows. -/
def Obligations.OverflowCountPatterns : Prop :=
  overflowCount .two = -11 ∧ toI32 (overflowCount .two) = 0xFFFFFFF5#32 ∧
    overflowCount .one = -10 ∧ toI32 (overflowCount .one) = 0xFFFFFFF6#32 ∧
    (∀ bias, (overflowResponse bias).toRsp.count = toI32 (-(9 + OvfBias.num bias))) ∧
    ∀ (bias : OvfBias) (f : Operands), (decodeVarint bias f).status = .overflow →
      (decodeVarint bias f).count = overflowCount bias

/-- R102: an UNROLLED busy edge finishes with the response of `decode(buf_r, avail_r)` and changes nothing else. That the
UNROLLED block holds `acc` and `idx`, and one that is not ITERATIVE `sz_rem` and `sz_cnt`, is the model's choice
(log entry 19). -/
def Obligations.UnrolledDecodeEdgeFinishes : Prop :=
  ∀ (f : Operands) (s : State), s.params.decodeStrategy = .unrolled →
    exec (.decode f) s =
      .next
        { s with
          resValue := (decodeVarint s.params.ovfBias f).value
          resCount := toI32 (decodeVarint s.params.ovfBias f).count
          resStatus := (decodeVarint s.params.ovfBias f).status
          busy := false, done := true }

/-- R103, with the registers acceptance loads: one byte per busy edge, the checks in R100's order; an index that goes on
stays in 0..9 and does not wrap. The result registers are unspecified while the block stays BUSY. That a size calculator
that is not ITERATIVE holds `sz_rem` and `sz_cnt` is the model's choice (log entries 8 and 19). -/
def Obligations.IterativeDecodeEdge : Prop :=
  (∀ (s : State) (p : InPorts), (s.accept p).acc = 0 ∧ (s.accept p).idx = 0) ∧
    ∀ (f : Operands) (s : State), s.params.decodeStrategy = .iterative →
      (avail f ≤ s.idx.toNat →
        exec (.decode f) s =
          .next { s with resValue := 0, resCount := 0, resStatus := .short, busy := false, done := true }) ∧
        (s.idx.toNat < avail f → s.idx.toNat = 9 → 1 < (memRead f s.idx.toNat).toNat →
          exec (.decode f) s =
            .next
              { s with
                resValue := 0, resCount := toI32 (-(9 + OvfBias.num s.params.ovfBias)), resStatus := .overflow
                busy := false, done := true }) ∧
        (s.idx.toNat < avail f → ¬(s.idx.toNat = 9 ∧ 1 < (memRead f s.idx.toNat).toNat) →
          (memRead f s.idx.toNat).getLsbD 7 = false →
            exec (.decode f) s =
              .next
                { s with
                  resValue := s.acc ||| sh (memRead f s.idx.toNat) s.idx.toNat
                  resCount := toI32 (s.idx.toNat + 1 : Nat), resStatus := .ok
                  busy := false, done := true }) ∧
        (s.idx.toNat < avail f → ¬(s.idx.toNat = 9 ∧ 1 < (memRead f s.idx.toNat).toNat) →
          (memRead f s.idx.toNat).getLsbD 7 = true →
            (s.idx + 1).toNat = s.idx.toNat + 1 ∧ s.idx.toNat + 1 ≤ 9 ∧
              ∃ v c st,
                exec (.decode f) s =
                  .next
                    { s with
                      acc := s.acc ||| sh (memRead f s.idx.toNat) s.idx.toNat, idx := s.idx + 1
                      resValue := v, resCount := c, resStatus := st, waited := s.waited + 1 })

/-- The equivalence R104 derives, on the machine: both reference decoders post R92's response, UNROLLED at the 1st busy
edge and ITERATIVE at the edge of the index where DECODE stops. -/
def Obligations.DecodeStrategiesPostTheSameResponse : Prop :=
  ∀ s : State, s.Accepts → s.ports.reqOp = 0b00#2 →
    s.NoResetFor (stopIndex s.ports.offered.fields + 2) →
      (s.params.decodeStrategy = .unrolled →
        ∃ t, edges 2 s = .next t ∧ t.Posts (decodeVarint s.params.ovfBias s.ports.offered.fields)) ∧
        (s.params.decodeStrategy = .iterative →
          (∀ k, 1 ≤ k → k ≤ stopIndex s.ports.offered.fields + 1 →
            ∃ u, edges k s = .next u ∧ u.InFlight) ∧
            ∃ t, edges (stopIndex s.ports.offered.fields + 2) s = .next t ∧
              t.Posts (decodeVarint s.params.ovfBias s.ports.offered.fields))

/-- The latencies R105 derives: the index where DECODE stops, by the kind of its response. -/
def Obligations.DecodeStopIndexByKind : Prop :=
  ∀ (bias : OvfBias) (f : Operands),
    stopIndex f ≤ 9 ∧
      ((decodeVarint bias f).status = .ok → (decodeVarint bias f).count = (stopIndex f + 1 : Nat)) ∧
      ((decodeVarint bias f).status = .short → stopIndex f = avail f) ∧
      ((decodeVarint bias f).status = .overflow → stopIndex f = 9)

/-- The laws R65 derives for the canonical encoder, and that what it writes is a varint that denotes v (R61, R63). -/
def Obligations.CanonicalEncodingIsAVarintOfItsValue : Prop :=
  ∀ v : U64,
    (enc v).length = size v ∧ (enc v).length ≤ 10 ∧ isVarint (enc v) = true ∧ varintValue (enc v) = v ∧
      scanLength (enc v) = some (size v) ∧
      ((enc v).length = 10 → (enc v).getLast? = some 0x01#8)

/-- The round trip of R107 item 1, for every u64, every padding and every sufficient length field. -/
def Obligations.EncodedValueDecodesToItself : Prop :=
  ∀ (bias : OvfBias) (v x : U64) (pad : List Byte) (l : BitVec 4), size v ≤ l.toNat →
    decodeVarint bias { x := x, buf := Window.ofList (enc v ++ pad), len := l } =
      { value := v, count := (size v : Int), status := .ok }

/-- R107 item 2: an encoding cut short by one byte gives `(0, 0, SHORT)`. -/
def Obligations.TruncatedEncodingIsShort : Prop :=
  ∀ (bias : OvfBias) (v x : U64) (pad : List Byte) (l : BitVec 4), l.toNat + 1 = size v →
    decodeVarint bias { x := x, buf := Window.ofList (enc v ++ pad), len := l } =
      { value := 0, count := 0, status := .short }

/-- R107 items 4 and 5: ten continuing bytes overflow in a buffer of any greater length, and so do nine continuing
bytes followed by one in 0x02..0x7F. -/
def Obligations.WideBuffersOverflow : Prop :=
  ∀ (bias : OvfBias) (bytes : List Byte), 10 ≤ bytes.length →
    (∀ j, j < 9 → cont (bytes.getD j 0) = true) →
      cont (bytes.getD 9 0) = true ∨ 0x02 ≤ (bytes.getD 9 0).toNat ∧ (bytes.getD 9 0).toNat ≤ 0x7F →
        decodeVarint bias (presentBuffer bytes) =
          { value := 0, count := -(9 + OvfBias.num bias), status := .overflow }

/-! ### Reserved requests -/

/-- R116 and R117: both reserved requests finish with `(0, 0, ILLEGAL)` at a busy edge, in every strategy of R5, and
change nothing else. In a block of no reference strategy they do so at the `LAT_MAX`-th busy edge at the latest (R163),
which is how the model reads the two rules together (DEDUCED, log entry 9); OtherImplementationsFinishOrWait has its
earlier edges. -/
def Obligations.ReservedRequestsAnswerIllegal : Prop :=
  ∀ (f : Operands) (s : State), s.Reference ∨ s.params.latMax ≤ s.waited + 1 →
    exec (.rsvd2 f) s =
        .next { s with resValue := 0, resCount := 0, resStatus := .illegal, busy := false, done := true } ∧
      exec (.rsvd3 f) s =
        .next { s with resValue := 0, resCount := 0, resStatus := .illegal, busy := false, done := true }

/-! ### What every busy edge does -/

/-- The general model of R29 for an implementation that follows no reference strategy: the busy edge finishes with the
request's response, or stays BUSY with its results unspecified and `LAT_MAX` not yet reached. The bound is put in the
model's own counter `waited`, and that such a block leaves `acc`, `idx`, `sz_rem` and `sz_cnt` alone is the model's
deduction from R20 and R21 (log entry 8). That R163's draw covers reserved requests, in a block with either unit of no
reference strategy, is log entry 9. -/
def Obligations.OtherImplementationsFinishOrWait : Prop :=
  ∀ (i : Instr) (s : State),
    (i.op = 0b00#2 ∧ s.params.decodeStrategy = .other ∨ i.op = 0b01#2 ∧ s.params.sizeStrategy = .other ∨
        (i.op = 0b10#2 ∨ i.op = 0b11#2) ∧ ¬s.Reference) →
      (exec i s = .next (s.finish (respond s.params.ovfBias i)) ∨
        s.waited + 1 < s.params.latMax ∧
          ∃ v c st,
            exec i s =
              .next { s with resValue := v, resCount := c, resStatus := st, waited := s.waited + 1 }) ∧
        (s.params.latMax ≤ s.waited + 1 → exec i s = .next (s.finish (respond s.params.ovfBias i)))

/-- The frame of every request kind: the latches, the ports, the host's script and the parameters stay; `acc` and `idx`
move only with an iterative DECODE, `sz_rem` and `sz_cnt` only with an iterative SIZE (R20, R21); and `busy` and `done`
move only together, to DONE (R30). That a block that is not ITERATIVE holds the registers of its datapaths is the model's
choice (log entries 8 and 19). -/
def Obligations.BusyEdgeFrame : Prop :=
  ∀ (i : Instr) (s t : State), exec i s = .next t →
    t.opR = s.opR ∧ t.xR = s.xR ∧ t.bufR = s.bufR ∧ t.availR = s.availR ∧
      t.ports = s.ports ∧ t.script = s.script ∧ t.params = s.params ∧ t.draws = s.draws ∧
      (¬(i.op = 0b00#2 ∧ s.params.decodeStrategy = .iterative) → t.acc = s.acc ∧ t.idx = s.idx) ∧
      (¬(i.op = 0b01#2 ∧ s.params.sizeStrategy = .iterative) → t.szRem = s.szRem ∧ t.szCnt = s.szCnt) ∧
      (t.busy = false ∧ t.done = true ∨ t.busy = s.busy ∧ t.done = s.done)

/-! ### Edges: reset, acceptance, idle, busy -/

/-- A busy edge runs the request its latches' REQ word decodes to (R19, R29); around `exec` the step adds what the host
drives next. -/
def Obligations.BusyStepRunsTheDecodedRequest : Prop :=
  ∀ (s : State) (i : Instr), s.ports.rst = false → s.busy = true → decodeReq s.latchedWord = i →
    ∀ t, exec i s = .next t →
      step s =
        .next
          { t with
            ports := t.script.headD InPorts.quiet, script := t.script.tail, draws := t.draws + 1 }

/-- A request offered on the ports is accepted at one edge and runs at the next: the second step is `exec` of what the
offered REQ word decodes to, whatever the ports hold by then. -/
def Obligations.OfferedRequestRunsAtTheNextEdge : Prop :=
  ∀ s : State, s.Accepts → s.NoResetFor 2 →
    edges 2 s = tickOutcome (exec (decodeReq s.ports.word) (s.accept s.ports).tick)

/-- R28: at an acceptance edge the request is copied into the latches, the datapath registers are loaded, and the block
is BUSY. The results are unspecified, so nothing is said of them. -/
def Obligations.AcceptanceLatchesTheRequest : Prop :=
  ∀ s : State, s.ports.rst = false → s.busy = false → s.ports.reqValid = true →
    ∃ t, step s = .next t ∧
      t.opR = s.ports.reqOp ∧ t.xR = s.ports.reqX ∧
      (∀ (k : Nat) (h : k < 10), t.bufR[k] = s.ports.reqBuf.extractLsb' (8 * k) 8) ∧
      t.availR.toNat = min s.ports.reqLen.toNat 10 ∧
      t.acc = 0 ∧ t.idx = 0 ∧ t.szRem = s.ports.reqX ∧ t.szCnt = 0 ∧
      t.busy = true ∧ t.done = false ∧ t.params = s.params

/-- R27: `req_ready`, and that the block takes an offered request exactly when it is 1, in IDLE and in DONE. While BUSY
the edge is the busy step of the latched request, whatever is offered, and the latches stay; a reset edge leaves the
block without a request. -/
def Obligations.ReadyMeansTaken : Prop :=
  ∀ s : State,
    (s.reqReady = true ↔ s.busy = false ∧ s.ports.rst = false) ∧
      (s.ports.reqValid = true → s.reqReady = true → step s = .next (s.accept s.ports).tick) ∧
      (s.ports.rst = false → s.busy = true →
        s.reqReady = false ∧ step s = tickOutcome (exec s.latched s) ∧
          ∃ t, step s = .next t ∧ t.opR = s.opR ∧ t.xR = s.xR ∧ t.bufR = s.bufR ∧ t.availR = s.availR) ∧
      (s.ports.rst = true → s.reqReady = false ∧ ∃ t, step s = .next t ∧ t.busy = false ∧ t.done = false)

/-- R159: while BUSY no offered request is taken, lost or merged: the ports other than `rst` change nothing. -/
def Obligations.BusyBlockIgnoresItsPorts : Prop :=
  ∀ (s : State) (p : InPorts), s.busy = true → s.ports.rst = false → p.rst = false →
    s.reqReady = false ∧ step { s with ports := p } = step s

/-- R26: with no reset and no request, any number of edges changes no register: a posted response stays posted. -/
def Obligations.IdleEdgesChangeNoRegister : Prop :=
  ∀ (n : Nat) (s : State), s.busy = false → s.QuietFor n →
    ∃ t, edges n s = .next t ∧
      ∃ ps scr, t = { s with ports := ps, script := scr, draws := s.draws + n }

/-- R152 and R32: what a reset edge leaves in every phase, whatever the ports offer, and `req_ready` during it and in
the first cycle after it. The latches and datapath registers are unspecified, so nothing is said of them. -/
def Obligations.ResetEdgeClearsTheBlock : Prop :=
  ∀ s : State, s.ports.rst = true →
    s.reqReady = false ∧
      ∃ t, step s = .next t ∧
        t.busy = false ∧ t.done = false ∧
        t.resValue = 0 ∧ t.resCount = 0x00000000#32 ∧ t.resStatus = .ok ∧ t.params = s.params ∧
        (t.ports.rst = false → t.reqReady = true)

/-- The rule of R153 that a reset abandons the request in flight: after a reset edge no response is ever posted until
another request is offered, however many edges pass and whether or not the reset goes on. -/
def Obligations.ResetAbandonsTheRequest : Prop :=
  ∀ (n : Nat) (s : State), s.ports.rst = true → (∀ p ∈ s.script.take n, p.reqValid = false) →
    ∃ t, edges (n + 1) s = .next t ∧ t.done = false ∧ t.busy = false

/-- R132: no state stops the machine, and no request stops it. -/
def Obligations.EveryEdgeHasANextState : Prop :=
  (∀ (i : Instr) (s : State), ∃ t, exec i s = .next t) ∧ ∀ s : State, ∃ t, step s = .next t

/-- R14 and what R22, R49 and R160 promise of `done`: from a state that runs reach, in every later cycle before the
next request or reset, the ports show the response of the last accepted request, and a host reads it. -/
def Obligations.PostedResponseStaysOnTheOutputs : Prop :=
  ∀ (n : Nat) (s : State), s.Inv → s.done = true → s.QuietFor n →
    ∃ t, edges n s = .next t ∧ t.outputs.busy = false ∧ t.outputs.done = true ∧
      t.outputs.rspValue = (respond s.params.ovfBias s.latched).value ∧
      t.outputs.rspCount = toI32 (respond s.params.ovfBias s.latched).count ∧
      t.outputs.rspStatus = (respond s.params.ovfBias s.latched).status.code ∧
      t.hostRead = (respond s.params.ovfBias s.latched).toRsp

/-! ### The whole machine -/

/-- The reset state meets the invariant. Its values for the latches and the parameters are the model's (log entries 2
and 3). -/
def Obligations.ResetStateMeetsTheInvariant : Prop := State.reset.Inv

/-- From any state, as power-up may leave it (R156), one reset edge meets the invariant, if the block is built with
legal parameters (which they are is read from R81 and R105 by log entry 20). -/
def Obligations.AnyStateIsResetIntoTheInvariant : Prop :=
  ∀ s : State, s.params.Legal → s.ports.rst = true → ∃ t, step s = .next t ∧ t.Inv

/-- Every edge keeps the invariant: legal parameters (as log entry 20 reads R81 and R105), the phases (R17), the
ranges (R18 to R21), the latency bound (R29), the progress of the iterative datapaths (R80, R97, R103), and that a
posted response is that of the last accepted request (R22). -/
def Obligations.EveryEdgeKeepsTheInvariant : Prop :=
  ∀ s t : State, s.Inv → step s = .next t → t.Inv

/-- R29 and R162, for every implementation: an accepted request that no reset abandons is BUSY from its acceptance edge
on and is answered at a busy edge d in 1..LAT_MAX, with the response its transaction-level function gives. Which
parameters are legal is read from R81 and R105 by log entry 20. -/
def Obligations.EveryRequestIsAnsweredInTime : Prop :=
  ∀ s : State, s.params.Legal → s.Accepts → s.NoResetFor (s.params.latMax + 1) →
    ∃ d, 1 ≤ d ∧ d ≤ s.params.latMax ∧
      (∀ k, 1 ≤ k → k ≤ d → ∃ u, edges k s = .next u ∧ u.InFlight) ∧
      ∃ t, edges (d + 1) s = .next t ∧ t.Posts (respond s.params.ovfBias s.ports.offered)

/-- The latency table R163 gives for the reference strategies: its rows, and that a block built from reference datapaths
is BUSY up to that busy edge and posts there. -/
def Obligations.ReferenceBlocksPostAtTheTabulatedEdge : Prop :=
  (∀ (p : Params) (f : Operands),
    referenceLatency p (.rsvd2 f) = 1 ∧ referenceLatency p (.rsvd3 f) = 1 ∧
      (p.sizeStrategy = .flat → referenceLatency p (.size f) = 1) ∧
      (p.sizeStrategy = .iterative → referenceLatency p (.size f) = size f.x) ∧
      (p.decodeStrategy = .unrolled → referenceLatency p (.decode f) = 1) ∧
      (p.decodeStrategy = .iterative →
        ((decodeVarint p.ovfBias f).status = .ok →
          (decodeVarint p.ovfBias f).count = referenceLatency p (.decode f)) ∧
        ((decodeVarint p.ovfBias f).status = .short → referenceLatency p (.decode f) = avail f + 1) ∧
        ((decodeVarint p.ovfBias f).status = .overflow → referenceLatency p (.decode f) = 10))) ∧
    ∀ s : State, s.Accepts → s.params.decodeStrategy ≠ .other → s.params.sizeStrategy ≠ .other →
      s.NoResetFor (referenceLatency s.params s.ports.offered + 1) →
        (∀ k, 1 ≤ k → k ≤ referenceLatency s.params s.ports.offered →
          ∃ u, edges k s = .next u ∧ u.InFlight) ∧
          ∃ t, edges (referenceLatency s.params s.ports.offered + 1) s = .next t ∧
            t.Posts (respond s.params.ovfBias s.ports.offered)

/-- A host program (R165), on every implementation: each request gets the response of its transaction-level function,
in the order of the requests (R47, R48), and the program ends with the last one posted. How the host drives the ports is
the model's choice (log entry 13), and which parameters are legal is read from R81 and R105 by log entry 20. -/
def Obligations.HostProgramGetsEveryResponse : Prop :=
  ∀ (prog : List Instr) (s : State), s.params.Legal → s.busy = false →
    ∃ u, runProgram prog s = .next (prog.map fun i => (respond s.params.ovfBias i).toRsp, u) ∧
      u.busy = false ∧ u.params = s.params ∧
      ∀ i, prog.getLast? = some i → u.Posts (respond s.params.ovfBias i)

/-! ### The host's tag parser -/

/-- R121: the host issues DECODE on its buffer, and its triple for each DECODE response. -/
def Obligations.TagParserFollowsTheResponse : Prop :=
  (∀ (bias : OvfBias) (buf : List Byte),
    parseTag bias buf = parseTagResponse (respond bias (.decode (presentBuffer buf)))) ∧
  ∀ r : Response,
    (r.count ≤ 0 → parseTagResponse r = { fieldNumber := 0, wireType := 0, consumed := 0 }) ∧
      (0 < r.count → (r.value >>> 3).toInt ≤ 0 ∨ 5 < r.value.toNat % 8 →
        parseTagResponse r = { fieldNumber := 0, wireType := 0, consumed := 0 }) ∧
      (0 < r.count → 0 < (r.value >>> 3).toInt → r.value.toNat % 8 ≤ 5 →
        parseTagResponse r =
          { fieldNumber := r.value >>> 3, wireType := r.value.extractLsb' 0 8 &&& 0x7, consumed := toI32 r.count })

/-- The consequence R124 draws: a field number is at most 2^61 - 1 and never negative, so of the responses with a
positive count and a wire type up to 5 exactly those with a value in 0..7 are rejected. -/
def Obligations.OnlyFieldNumberZeroIsRejected : Prop :=
  ∀ r : Response,
    ((parseTagResponse r).fieldNumber.toNat ≤ 2 ^ 61 - 1 ∧ 0 ≤ (parseTagResponse r).fieldNumber.toInt) ∧
      (0 < r.count → r.value.toNat % 8 ≤ 5 →
        (parseTagResponse r = Tag.rejected ↔ r.value.toNat ≤ 7))

/-- The source's tag scenario in general: a tag (R122) with a positive field number and a wire type up to 5, encoded,
is parsed back with its encoded length. -/
def Obligations.EncodedTagParsesToItself : Prop :=
  ∀ (bias : OvfBias) (fieldNumber : U64) (wireType : BitVec 3) (pad : List Byte),
    0 < fieldNumber.toNat → fieldNumber.toNat < 2 ^ 61 → wireType.toNat ≤ 5 →
      parseTag bias (enc (tagValue fieldNumber wireType) ++ pad) =
        { fieldNumber := fieldNumber, wireType := wireType.setWidth 8
          consumed := toI32 (size (tagValue fieldNumber wireType)) }

/-! ### The text notation -/

/-- The pseudo-form of R67 for every list it allows, up to 15 bytes: the length is the number listed, and of the bytes the
first ten are kept, since the window has no other position (DEDUCED, log entry 12). -/
def Obligations.PseudoFormKeepsTheFirstTenBytes : Prop :=
  ∀ bytes : List Nat, bytes.length ≤ 15 → (∀ b ∈ bytes, b < 256) →
    ∃ i, Source.assemble (.decodeList bytes) = some i ∧
      (encode i).toNat =
        0 ||| (((bytes.take 10).zipIdx.map fun b => b.1 * 2 ^ (8 * b.2)).sum <<< 66) |||
          (bytes.length <<< 146)
end

