-- ==== Sys2Proof/Laws/State.lean ====
section
/-! SUPPORT. What each operation of Machine/Ops.lean does to each field of State: one lemma per field per operation. -/

namespace Sys2Proof.Machine

variable (s : State)

/-! ### finish -/

@[simp] theorem State.finish_busy (r : Response) : (s.finish r).busy = false := rfl
@[simp] theorem State.finish_done (r : Response) : (s.finish r).done = true := rfl
@[simp] theorem State.finish_opR (r : Response) : (s.finish r).opR = s.opR := rfl
@[simp] theorem State.finish_xR (r : Response) : (s.finish r).xR = s.xR := rfl
@[simp] theorem State.finish_bufR (r : Response) : (s.finish r).bufR = s.bufR := rfl
@[simp] theorem State.finish_availR (r : Response) : (s.finish r).availR = s.availR := rfl
@[simp] theorem State.finish_acc (r : Response) : (s.finish r).acc = s.acc := rfl
@[simp] theorem State.finish_idx (r : Response) : (s.finish r).idx = s.idx := rfl
@[simp] theorem State.finish_szRem (r : Response) : (s.finish r).szRem = s.szRem := rfl
@[simp] theorem State.finish_szCnt (r : Response) : (s.finish r).szCnt = s.szCnt := rfl
@[simp] theorem State.finish_resValue (r : Response) : (s.finish r).resValue = r.value := rfl
@[simp] theorem State.finish_resCount (r : Response) : (s.finish r).resCount = toI32 r.count := rfl
@[simp] theorem State.finish_resStatus (r : Response) : (s.finish r).resStatus = r.status := rfl
@[simp] theorem State.finish_ports (r : Response) : (s.finish r).ports = s.ports := rfl
@[simp] theorem State.finish_script (r : Response) : (s.finish r).script = s.script := rfl
@[simp] theorem State.finish_params (r : Response) : (s.finish r).params = s.params := rfl
@[simp] theorem State.finish_waited (r : Response) : (s.finish r).waited = s.waited := rfl
@[simp] theorem State.finish_draws (r : Response) : (s.finish r).draws = s.draws := rfl
@[simp] theorem State.finish_rsp (r : Response) : (s.finish r).rsp = r.toRsp := rfl
@[simp] theorem State.finish_latched (r : Response) : (s.finish r).latched = s.latched := rfl

/-! ### drawResults -/

@[simp] theorem State.drawResults_busy : (s.drawResults).busy = s.busy := rfl
@[simp] theorem State.drawResults_done : (s.drawResults).done = s.done := rfl
@[simp] theorem State.drawResults_opR : (s.drawResults).opR = s.opR := rfl
@[simp] theorem State.drawResults_xR : (s.drawResults).xR = s.xR := rfl
@[simp] theorem State.drawResults_bufR : (s.drawResults).bufR = s.bufR := rfl
@[simp] theorem State.drawResults_availR : (s.drawResults).availR = s.availR := rfl
@[simp] theorem State.drawResults_acc : (s.drawResults).acc = s.acc := rfl
@[simp] theorem State.drawResults_idx : (s.drawResults).idx = s.idx := rfl
@[simp] theorem State.drawResults_szRem : (s.drawResults).szRem = s.szRem := rfl
@[simp] theorem State.drawResults_szCnt : (s.drawResults).szCnt = s.szCnt := rfl
@[simp] theorem State.drawResults_resValue : (s.drawResults).resValue = Config.freeResValue s.draws := rfl
@[simp] theorem State.drawResults_resCount : (s.drawResults).resCount = Config.freeResCount s.draws := rfl
@[simp] theorem State.drawResults_resStatus : (s.drawResults).resStatus = Status.ofCode (Config.freeResStatus s.draws) := rfl
@[simp] theorem State.drawResults_ports : (s.drawResults).ports = s.ports := rfl
@[simp] theorem State.drawResults_script : (s.drawResults).script = s.script := rfl
@[simp] theorem State.drawResults_params : (s.drawResults).params = s.params := rfl
@[simp] theorem State.drawResults_waited : (s.drawResults).waited = s.waited := rfl
@[simp] theorem State.drawResults_draws : (s.drawResults).draws = s.draws := rfl

/-! ### stayBusy -/

@[simp] theorem State.stayBusy_busy : (s.stayBusy).busy = s.busy := rfl
@[simp] theorem State.stayBusy_done : (s.stayBusy).done = s.done := rfl
@[simp] theorem State.stayBusy_opR : (s.stayBusy).opR = s.opR := rfl
@[simp] theorem State.stayBusy_xR : (s.stayBusy).xR = s.xR := rfl
@[simp] theorem State.stayBusy_bufR : (s.stayBusy).bufR = s.bufR := rfl
@[simp] theorem State.stayBusy_availR : (s.stayBusy).availR = s.availR := rfl
@[simp] theorem State.stayBusy_acc : (s.stayBusy).acc = s.acc := rfl
@[simp] theorem State.stayBusy_idx : (s.stayBusy).idx = s.idx := rfl
@[simp] theorem State.stayBusy_szRem : (s.stayBusy).szRem = s.szRem := rfl
@[simp] theorem State.stayBusy_szCnt : (s.stayBusy).szCnt = s.szCnt := rfl
@[simp] theorem State.stayBusy_resValue : (s.stayBusy).resValue = Config.freeResValue s.draws := rfl
@[simp] theorem State.stayBusy_resCount : (s.stayBusy).resCount = Config.freeResCount s.draws := rfl
@[simp] theorem State.stayBusy_resStatus : (s.stayBusy).resStatus = Status.ofCode (Config.freeResStatus s.draws) := rfl
@[simp] theorem State.stayBusy_ports : (s.stayBusy).ports = s.ports := rfl
@[simp] theorem State.stayBusy_script : (s.stayBusy).script = s.script := rfl
@[simp] theorem State.stayBusy_params : (s.stayBusy).params = s.params := rfl
@[simp] theorem State.stayBusy_waited : (s.stayBusy).waited = s.waited + 1 := rfl
@[simp] theorem State.stayBusy_draws : (s.stayBusy).draws = s.draws := rfl
@[simp] theorem State.stayBusy_latched : s.stayBusy.latched = s.latched := rfl

/-! ### accept -/

@[simp] theorem State.accept_busy (p : InPorts) : (s.accept p).busy = true := rfl
@[simp] theorem State.accept_done (p : InPorts) : (s.accept p).done = false := rfl
@[simp] theorem State.accept_opR (p : InPorts) : (s.accept p).opR = p.reqOp := rfl
@[simp] theorem State.accept_xR (p : InPorts) : (s.accept p).xR = p.reqX := rfl
@[simp] theorem State.accept_bufR (p : InPorts) : (s.accept p).bufR = Window.ofPort p.reqBuf := rfl
@[simp] theorem State.accept_availR (p : InPorts) : (s.accept p).availR = availBits p.reqLen := rfl
@[simp] theorem State.accept_acc (p : InPorts) : (s.accept p).acc = 0 := rfl
@[simp] theorem State.accept_idx (p : InPorts) : (s.accept p).idx = 0 := rfl
@[simp] theorem State.accept_szRem (p : InPorts) : (s.accept p).szRem = p.reqX := rfl
@[simp] theorem State.accept_szCnt (p : InPorts) : (s.accept p).szCnt = 0 := rfl
@[simp] theorem State.accept_resValue (p : InPorts) : (s.accept p).resValue = Config.freeResValue s.draws := rfl
@[simp] theorem State.accept_resCount (p : InPorts) : (s.accept p).resCount = Config.freeResCount s.draws := rfl
@[simp] theorem State.accept_resStatus (p : InPorts) : (s.accept p).resStatus = Status.ofCode (Config.freeResStatus s.draws) := rfl
@[simp] theorem State.accept_ports (p : InPorts) : (s.accept p).ports = s.ports := rfl
@[simp] theorem State.accept_script (p : InPorts) : (s.accept p).script = s.script := rfl
@[simp] theorem State.accept_params (p : InPorts) : (s.accept p).params = s.params := rfl
@[simp] theorem State.accept_waited (p : InPorts) : (s.accept p).waited = 0 := rfl
@[simp] theorem State.accept_draws (p : InPorts) : (s.accept p).draws = s.draws := rfl

/-! ### resetEdge -/

@[simp] theorem State.resetEdge_busy : (s.resetEdge).busy = false := rfl
@[simp] theorem State.resetEdge_done : (s.resetEdge).done = false := rfl
@[simp] theorem State.resetEdge_opR : (s.resetEdge).opR = Config.freeOp s.draws := rfl
@[simp] theorem State.resetEdge_xR : (s.resetEdge).xR = Config.freeX s.draws := rfl
@[simp] theorem State.resetEdge_bufR : (s.resetEdge).bufR = Config.freeBuf s.draws := rfl
@[simp] theorem State.resetEdge_availR : (s.resetEdge).availR = Config.freeAvail s.draws := rfl
@[simp] theorem State.resetEdge_acc : (s.resetEdge).acc = Config.freeAcc s.draws := rfl
@[simp] theorem State.resetEdge_idx : (s.resetEdge).idx = Config.freeIdx s.draws := rfl
@[simp] theorem State.resetEdge_szRem : (s.resetEdge).szRem = Config.freeSzRem s.draws := rfl
@[simp] theorem State.resetEdge_szCnt : (s.resetEdge).szCnt = Config.freeSzCnt s.draws := rfl
@[simp] theorem State.resetEdge_resValue : (s.resetEdge).resValue = 0 := rfl
@[simp] theorem State.resetEdge_resCount : (s.resetEdge).resCount = 0 := rfl
@[simp] theorem State.resetEdge_resStatus : (s.resetEdge).resStatus = .ok := rfl
@[simp] theorem State.resetEdge_ports : (s.resetEdge).ports = s.ports := rfl
@[simp] theorem State.resetEdge_script : (s.resetEdge).script = s.script := rfl
@[simp] theorem State.resetEdge_params : (s.resetEdge).params = s.params := rfl
@[simp] theorem State.resetEdge_waited : (s.resetEdge).waited = s.waited := rfl
@[simp] theorem State.resetEdge_draws : (s.resetEdge).draws = s.draws := rfl

/-! ### tick -/

@[simp] theorem State.tick_busy : (s.tick).busy = s.busy := rfl
@[simp] theorem State.tick_done : (s.tick).done = s.done := rfl
@[simp] theorem State.tick_opR : (s.tick).opR = s.opR := rfl
@[simp] theorem State.tick_xR : (s.tick).xR = s.xR := rfl
@[simp] theorem State.tick_bufR : (s.tick).bufR = s.bufR := rfl
@[simp] theorem State.tick_availR : (s.tick).availR = s.availR := rfl
@[simp] theorem State.tick_acc : (s.tick).acc = s.acc := rfl
@[simp] theorem State.tick_idx : (s.tick).idx = s.idx := rfl
@[simp] theorem State.tick_szRem : (s.tick).szRem = s.szRem := rfl
@[simp] theorem State.tick_szCnt : (s.tick).szCnt = s.szCnt := rfl
@[simp] theorem State.tick_resValue : (s.tick).resValue = s.resValue := rfl
@[simp] theorem State.tick_resCount : (s.tick).resCount = s.resCount := rfl
@[simp] theorem State.tick_resStatus : (s.tick).resStatus = s.resStatus := rfl
@[simp] theorem State.tick_ports : (s.tick).ports = s.script.headD InPorts.quiet := rfl
@[simp] theorem State.tick_script : (s.tick).script = s.script.tail := rfl
@[simp] theorem State.tick_params : (s.tick).params = s.params := rfl
@[simp] theorem State.tick_waited : (s.tick).waited = s.waited := rfl
@[simp] theorem State.tick_draws : (s.tick).draws = s.draws + 1 := rfl
@[simp] theorem State.tick_rsp : s.tick.rsp = s.rsp := rfl
@[simp] theorem State.tick_latched : s.tick.latched = s.latched := rfl

end Sys2Proof.Machine
end

