-- ==== Sys2Proof/Laws/Ops.lean ====
section
/-! SUPPORT. One specification lemma for each shared operation that has cases or computes a field. -/

namespace Sys2Proof.Machine

/-- Everything the busy edge of a non-reference implementation can do. -/
theorem State.finishOrWait_cases (s : State) (r : Response) :
    s.finishOrWait r = s.finish r ∨ s.waited + 1 < s.params.latMax ∧ s.finishOrWait r = s.stayBusy := by
  unfold State.finishOrWait
  by_cases h : (decide (s.params.latMax ≤ s.waited + 1) || Config.freeFinish s.draws) = true
  · exact .inl (if_pos h)
  · refine .inr ⟨?_, if_neg h⟩
    simp only [Bool.or_eq_true, decide_eq_true_eq, not_or, Nat.not_le] at h
    exact h.1

/-- At the `LAT_MAX`-th busy edge the draw has no choice. -/
theorem State.finishOrWait_at_bound (s : State) (r : Response) (h : s.params.latMax ≤ s.waited + 1) :
    s.finishOrWait r = s.finish r := by
  simp [State.finishOrWait, h]

/-- `avail_r` is loaded with `min(req_len, 10)`, a value its four bits hold. -/
theorem availBits_toNat (l : BitVec 4) : (availBits l).toNat = min l.toNat maxLen := by
  have : min l.toNat maxLen < 2 ^ 4 := by unfold maxLen; omega
  simpa [availBits] using this

/-- The valid length is at most the window. -/
theorem avail_le (f : Operands) : avail f ≤ 10 := Nat.min_le_right ..

/-- A latched length gives the valid length of the length it came from. -/
theorem avail_availBits (x y : U64) (b c : Window) (l : BitVec 4) :
    avail { x := x, buf := b, len := availBits l } = avail { x := y, buf := c, len := l } := by
  simp [avail, availBits_toNat]

/-- Status codes and their names are one to one. -/
@[simp] theorem Status.ofCode_code (st : Status) : Status.ofCode st.code = st := by
  cases st <;> rfl

theorem Status.code_ofCode (c : BitVec 2) : (Status.ofCode c).code = c := by
  unfold Status.ofCode
  split
  · simp_all [Status.code]
  split
  · simp_all [Status.code]
  split
  · simp_all [Status.code]
  · simp only [Status.code]
    have := c.isLt
    bv_omega

end Sys2Proof.Machine
end

