-- ==== Sys2Proof/Laws/Decoder.lean ====
section
/-! SUPPORT. What examining one index does, where the decode stops, and the UNROLLED datapath in terms of it. -/

namespace Sys2Proof.Machine

/-- A check of R100 ends the decode at index i exactly when examining it stops. -/
theorem examine_eq (bias : OvfBias) (f : Operands) (i : Nat) (a : U64) :
    examine bias f i a =
      if stopsAt f i then
        .stop
          (if shortBuffer f i then shortResponse
           else if overflowAt i (memRead f i) then overflowResponse bias
           else okResponse (a ||| sh (memRead f i) i) (i + 1))
      else .more (a ||| sh (memRead f i) i) := by
  unfold examine stopsAt
  cases shortBuffer f i <;> cases overflowAt i (memRead f i) <;> cases cont (memRead f i) <;> rfl

/-- Examining an index reads only a valid byte of the window: past `avail` the byte plays no part (R42, R99). -/
theorem examine_reads_valid_bytes (bias : OvfBias) (f g : Operands) (i : Nat) (a : U64)
    (ha : avail f = avail g) (hb : i < avail f → memRead f i = memRead g i) :
    examine bias f i a = examine bias g i a := by
  unfold examine shortBuffer
  by_cases h : avail f ≤ i
  · simp [h, ha ▸ h]
  · have hg : ¬avail g ≤ i := ha ▸ h
    simp [h, hg, hb (by omega)]

/-- At index 9 some check always ends the decode (R103). -/
theorem stopsAt_nine (f : Operands) : stopsAt f 9 = true := by
  unfold stopsAt overflowAt cont
  by_cases h : 1 < (memRead f 9).toNat
  · simp [h]
  · have : (memRead f 9).getLsbD 7 = false := by
      rw [BitVec.getLsbD, Nat.testBit_eq_false_of_lt]
      omega
    rw [this]
    simp

/-- The index where DECODE stops is the first one at which a check fires. -/
theorem stopIndex_spec (f : Operands) :
    stopIndex f ≤ 9 ∧ stopsAt f (stopIndex f) = true ∧ ∀ j < stopIndex f, stopsAt f j = false := by
  unfold stopIndex
  cases h : (List.range 10).find? (stopsAt f) with
  | none =>
    have := List.find?_eq_none.mp h 9 (by decide)
    exact absurd (stopsAt_nine f) this
  | some t =>
    obtain ⟨ht, hlt, hmin⟩ := List.find?_range_eq_some.mp h
    have : t < 10 := List.mem_range.mp hlt
    refine ⟨by simpa using Nat.le_of_lt_succ this, by simpa using ht, fun j hj => ?_⟩
    simpa using hmin j hj

/-- An index that is the first at which a check fires is where DECODE stops. -/
theorem stopIndex_unique (f : Operands) (t : Nat) (ht : stopsAt f t = true)
    (hlt : ∀ j < t, stopsAt f j = false) : stopIndex f = t := by
  obtain ⟨-, hs, hmin⟩ := stopIndex_spec f
  rcases Nat.lt_trichotomy (stopIndex f) t with h | h | h
  · simp [hlt _ h] at hs
  · exact h
  · simp [hmin _ h] at ht

/-- Before the stop every index is valid, does not overflow and continues. -/
theorem not_stopsAt_iff (f : Operands) (i : Nat) :
    stopsAt f i = false ↔
      i < avail f ∧ overflowAt i (memRead f i) = false ∧ cont (memRead f i) = true := by
  unfold stopsAt shortBuffer
  simp [and_assoc]

/-- One more group. -/
theorem orGroups_succ (f : Operands) (n : Nat) :
    orGroups f (n + 1) = orGroups f n ||| sh (memRead f n) n := by
  simp [orGroups, List.range_succ]

@[simp] theorem orGroups_zero (f : Operands) : orGroups f 0 = 0 := rfl

/-- The loop of R92 from an index no check has reached yet is the loop from the start. -/
theorem decodeLoop_from (bias : OvfBias) (f : Operands) (i : Nat) (hi : i ≤ stopIndex f) :
    decodeLoop bias f (10 - i) i (orGroups f i) = decodeVarint bias f := by
  induction i with
  | zero => rfl
  | succ i ih =>
    obtain ⟨h9, -, hmin⟩ := stopIndex_spec f
    rw [← ih (by omega)]
    have e : 10 - i = (10 - (i + 1)) + 1 := by omega
    rw [e, decodeLoop, examine_eq, hmin i (by omega)]
    simp [orGroups_succ]

end Sys2Proof.Machine
end

