-- ==== Sys2Proof/Laws/Encoding.lean ====
section
/-! SUPPORT. Taking a concatenation of fields apart, the window and its port value, and the op map. -/

namespace Sys2Proof

/-- The low field of a concatenation. -/
theorem extract_append_low {m n : Nat} (x : BitVec m) (y : BitVec n) :
    (x ++ y).extractLsb' 0 n = y := by
  ext i h
  simp [BitVec.getElem_extractLsb', BitVec.getLsbD_append, h]

/-- A field above the low one, k bits up in the rest of the concatenation. -/
theorem extract_append_high {m n : Nat} (x : BitVec m) (y : BitVec n) (k w : Nat) :
    (x ++ y).extractLsb' (n + k) w = x.extractLsb' k w := by
  ext i h
  simp [BitVec.getElem_extractLsb', BitVec.getLsbD_append, Nat.add_assoc]

/-- A field inside the low part of a concatenation. -/
theorem extract_append_within {m n : Nat} (x : BitVec m) (y : BitVec n) (k w : Nat) (h : k + w ≤ n) :
    (x ++ y).extractLsb' k w = y.extractLsb' k w := by
  ext i hi
  have : k + i < n := by omega
  simp [BitVec.getElem_extractLsb', BitVec.getLsbD_append, this]

/-- A whole word is its own field. -/
theorem extract_all {n : Nat} (w : BitVec n) : w.extractLsb' 0 n = w := by
  ext i h
  simp

/-- Cutting a word in two and joining the halves gives the word back. -/
theorem append_extract {m n : Nat} (w : BitVec (m + n)) :
    w.extractLsb' n m ++ w.extractLsb' 0 n = w := by
  ext i h
  rw [BitVec.getElem_append]
  split
  · simp [BitVec.getElem_extractLsb', BitVec.getLsbD_eq_getElem h]
  · rename_i hn
    have : n + (i - n) = i := by omega
    simp [BitVec.getElem_extractLsb', this, BitVec.getLsbD_eq_getElem h]

/-- A field of a field. -/
theorem extract_extract {n : Nat} (w : BitVec n) (a b k c : Nat) (h : k + c ≤ b) :
    (w.extractLsb' a b).extractLsb' k c = w.extractLsb' (a + k) c := by
  ext i hi
  have : k + i < b := by omega
  simp [BitVec.getElem_extractLsb', this, Nat.add_assoc]

/-- A concatenation as a number. -/
theorem toNat_append_sum {m n : Nat} (x : BitVec m) (y : BitVec n) :
    (x ++ y).toNat = x.toNat * 2 ^ n + y.toNat := by
  rw [BitVec.toNat_append, ← Nat.shiftLeft_add_eq_or_of_lt y.isLt, Nat.shiftLeft_eq]

/-- The port value of a window as a number, byte 9 first. -/
theorem Window.toPort_toNat (w : Window) :
    (Window.toPort w).toNat =
      w[9].toNat * 2 ^ 72 + (w[8].toNat * 2 ^ 64 + (w[7].toNat * 2 ^ 56 + (w[6].toNat * 2 ^ 48 +
        (w[5].toNat * 2 ^ 40 + (w[4].toNat * 2 ^ 32 + (w[3].toNat * 2 ^ 24 + (w[2].toNat * 2 ^ 16 +
          (w[1].toNat * 2 ^ 8 + w[0].toNat)))))))) := by
  unfold Window.toPort
  refine (toNat_append_sum _ _).trans ?_; congr 1
  refine (toNat_append_sum _ _).trans ?_; congr 1
  refine (toNat_append_sum _ _).trans ?_; congr 1
  refine (toNat_append_sum _ _).trans ?_; congr 1
  refine (toNat_append_sum _ _).trans ?_; congr 1
  refine (toNat_append_sum _ _).trans ?_; congr 1
  refine (toNat_append_sum _ _).trans ?_; congr 1
  refine (toNat_append_sum _ _).trans ?_; congr 1
  exact toNat_append_sum _ _

/-- A window byte is its eight bits of the port (R43). -/
theorem Window.ofPort_getElem (p : BitVec 80) (k : Nat) (h : k < 10) :
    (Window.ofPort p)[k] = p.extractLsb' (8 * k) 8 := by
  interval_cases k <;> rfl

/-- Eight bits of a port value as a number. -/
theorem byte_toNat (p : BitVec 80) (k : Nat) : (p.extractLsb' k 8).toNat = p.toNat / 2 ^ k % 256 := by
  rw [BitVec.extractLsb'_toNat, Nat.shiftRight_eq_div_pow]

/-- Driving a window onto the port and latching it gives the window. -/
theorem Window.ofPort_toPort (w : Window) : Window.ofPort (Window.toPort w) = w := by
  ext1 k hk
  rw [Window.ofPort_getElem]
  apply BitVec.eq_of_toNat_eq
  rw [byte_toNat, Window.toPort_toNat]
  have h0 := w[0].isLt; have h1 := w[1].isLt; have h2 := w[2].isLt; have h3 := w[3].isLt
  have h4 := w[4].isLt; have h5 := w[5].isLt; have h6 := w[6].isLt; have h7 := w[7].isLt
  have h8 := w[8].isLt; have h9 := w[9].isLt
  interval_cases k <;> omega

/-- A port value is determined by its bytes. -/
theorem Window.ofPort_injective {p q : BitVec 80} (h : Window.ofPort p = Window.ofPort q) : p = q := by
  apply BitVec.eq_of_getLsbD_eq
  intro i hi
  have hk : i / 8 < 10 := by omega
  have hb : (Window.ofPort p)[i / 8] = (Window.ofPort q)[i / 8] := by rw [h]
  rw [Window.ofPort_getElem, Window.ofPort_getElem] at hb
  have := congrArg (·.getLsbD (i % 8)) hb
  simpa [BitVec.getLsbD_extractLsb', Nat.mod_lt, Nat.div_add_mod] using this

/-- Latching a port value and driving it again gives the port value. -/
theorem Window.toPort_ofPort (p : BitVec 80) : Window.toPort (Window.ofPort p) = p :=
  Window.ofPort_injective (Window.ofPort_toPort _)

/-- A REQ word is its four fields, joined. -/
theorem join_fields (w : BitVec 150) :
    (w.extractLsb' 146 4 ++ (w.extractLsb' 66 80 ++ (w.extractLsb' 2 64 ++ w.extractLsb' 0 2)) : BitVec 150) = w := by
  have hx := append_extract (m := 64) (n := 2) (w.extractLsb' 0 66)
  rw [extract_extract _ _ _ _ _ (by decide), extract_extract _ _ _ _ _ (by decide)] at hx
  have hb := append_extract (m := 80) (n := 66) (w.extractLsb' 0 146)
  rw [extract_extract _ _ _ _ _ (by decide), extract_extract _ _ _ _ _ (by decide)] at hb
  have hw := append_extract (m := 4) (n := 146) w
  rw [← hx] at hb
  rw [← hb] at hw
  exact hw

/-- The op map is read back from the op code and the fields. -/
theorem Instr.ofOp_op (i : Instr) : Instr.ofOp i.op i.fields = i := by
  cases i <;> rfl

/-- The op map keeps the op code. -/
@[simp] theorem Instr.op_ofOp (op : BitVec 2) (f : Operands) : (Instr.ofOp op f).op = op := by
  unfold Instr.ofOp
  split
  · simp_all [Instr.op]
  split
  · simp_all [Instr.op]
  split
  · simp_all [Instr.op]
  · have := op.isLt
    simp only [Instr.op]
    bv_omega

/-- The op map keeps the fields. -/
@[simp] theorem Instr.fields_ofOp (op : BitVec 2) (f : Operands) : (Instr.ofOp op f).fields = f := by
  unfold Instr.ofOp
  split
  · rfl
  split
  · rfl
  split <;> rfl

end Sys2Proof
end

