-- ==== Sys2Proof/Laws/Exec.lean ====
section
/-! SUPPORT. What a busy edge can do, once for all request kinds; the inversion of a step; runs of edges. -/

namespace Sys2Proof.Machine

/-- Everything one busy edge of the iterative bit counter does. -/
theorem State.sizeIterate_cases (s : State) :
    s.szRem >>> 7 = 0 ∧ s.sizeIterate = s.finish (sizeResponse (s.szCnt.toNat + 1)) ∨
      s.szRem >>> 7 ≠ 0 ∧
        s.sizeIterate = { s.stayBusy with szRem := s.szRem >>> 7, szCnt := s.szCnt + 1 } := by
  unfold State.sizeIterate
  by_cases h : s.szRem >>> 7 = 0
  · exact .inl ⟨h, if_pos h⟩
  · exact .inr ⟨h, if_neg h⟩

/-- Everything one busy edge of the iterative decoder does. -/
theorem State.decodeIterate_cases (s : State) (f : Operands) :
    (∃ r, examine s.params.ovfBias f s.idx.toNat s.acc = .stop r ∧ s.decodeIterate f = s.finish r) ∨
      ∃ a, examine s.params.ovfBias f s.idx.toNat s.acc = .more a ∧
        s.decodeIterate f = { s.stayBusy with acc := a, idx := s.idx + 1 } := by
  unfold State.decodeIterate
  cases h : examine s.params.ovfBias f s.idx.toNat s.acc with
  | stop r => exact .inl ⟨r, rfl, rfl⟩
  | more a => exact .inr ⟨a, rfl, rfl⟩

/-- A block of reference strategies answers a reserved request at once (R117). -/
theorem State.illegalStep_of_reference (s : State) (h : s.Reference) :
    s.illegalStep = s.finish illegalResponse :=
  if_pos h

/-- Another block answers a reserved request as any other, at a drawn busy edge (R163). -/
theorem State.illegalStep_of_not_reference (s : State) (h : ¬s.Reference) :
    s.illegalStep = s.finishOrWait illegalResponse :=
  if_neg h

/-- Everything one busy edge of a reserved request does. -/
theorem State.illegalStep_cases (s : State) :
    s.illegalStep = s.finish illegalResponse ∨
      ¬s.Reference ∧ s.waited + 1 < s.params.latMax ∧ s.illegalStep = s.stayBusy := by
  by_cases h : s.Reference
  · exact .inl (s.illegalStep_of_reference h)
  · rw [s.illegalStep_of_not_reference h]
    exact (s.finishOrWait_cases illegalResponse).imp_right fun hw => ⟨h, hw⟩

/-- Every edge that runs no request: reset, acceptance, idle; and the busy edge, which runs the latched request. -/
theorem step_cases (s : State) :
    s.ports.rst = true ∧ step s = .next s.resetEdge.tick ∨
      s.ports.rst = false ∧ s.busy = true ∧ step s = tickOutcome (exec s.latched s) ∨
      s.ports.rst = false ∧ s.busy = false ∧ s.ports.reqValid = true ∧
        step s = .next (s.accept s.ports).tick ∨
      s.ports.rst = false ∧ s.busy = false ∧ s.ports.reqValid = false ∧ step s = .next s.tick := by
  unfold step
  cases s.ports.rst <;> cases s.busy <;> cases s.ports.reqValid <;> simp

end Sys2Proof.Machine
end

