-- ==== Sys2Proof/Laws/PerInstr.lean ====
section
/-! SUPPORT. The family of statements made per request kind: its REQ word carries its row's op code (R57). -/

namespace Sys2Proof.Laws.OpCode

/-- The low two bits of a request's REQ word are its op code, whatever its operands. -/
def Statement (i : Instr) : Prop := (encode i).extractLsb' 0 2 = i.op

/-- The op code is the low field of the encoding. -/
theorem encode_op (i : Instr) : Statement i :=
  (extract_append_within _ _ 0 2 (by decide)).trans
    ((extract_append_within _ _ 0 2 (by decide)).trans (extract_append_low _ _))

theorem decode (f : Operands) : Statement (.decode f) := encode_op _
theorem size (f : Operands) : Statement (.size f) := encode_op _
theorem rsvd2 (f : Operands) : Statement (.rsvd2 f) := encode_op _
theorem rsvd3 (f : Operands) : Statement (.rsvd3 f) := encode_op _

end Sys2Proof.Laws.OpCode
end

