-- ==== Sys2Proof/Laws/Run.lean ====
section
/-! SUPPORT. Runs of edges one edge at a time, and what the host drives after an edge. -/

namespace Sys2Proof.Machine

@[simp] theorem edges_zero (s : State) : edges 0 s = .next s := rfl

/-- A run of any machine whose first step answers t goes on from t. -/
theorem run_succ (M : Host.Core) (n : Nat) (s t : M.State) (h : M.step s = .next t) :
    M.run (n + 1) s = M.run n t := by
  rw [Host.Core.run, h]

/-- A run whose first edge answers t goes on from t. -/
theorem edges_succ {s t : State} (n : Nat) (h : step s = .next t) : edges (n + 1) s = edges n t :=
  run_succ Sys2Proof.core n s t h

/-- The levels after an edge that keeps the script are the next ones of the script, then those of a quiet host. -/
theorem levels_tick_mem {s u : State} (n : Nat) (p : InPorts) (hu : u.script = s.script)
    (hp : p ∈ u.tick.levels.take n) : p = InPorts.quiet ∨ p ∈ s.script.take n := by
  simp only [State.levels, State.tick_ports, State.tick_script, hu] at hp
  cases hs : s.script with
  | nil =>
    rw [hs] at hp
    exact .inl (by simpa using List.mem_of_mem_take hp)
  | cons a l =>
    rw [hs] at hp
    exact .inr (by simpa using hp)

/-- The script's next n levels are among the next n + 1 levels. -/
theorem mem_levels_of_mem_script {s : State} (n : Nat) (p : InPorts) (hp : p ∈ s.script.take n) :
    p ∈ s.levels.take (n + 1) := by
  simp only [State.levels, List.take_succ_cons]
  exact List.mem_cons_of_mem _ hp

end Sys2Proof.Machine
end

