-- ==== Sys2Proof/Tests/Slice0.lean ====
section
/-! SUPPORT. Tests whose expected results stand in spec/95_test_vectors.md or follow from the rule named, and a witness
for the hypotheses of each obligation. -/

namespace Sys2Proof.Tests

open Sys2Proof.Machine

/-! ### Builders of small states -/

/-- Both datapaths iterative (R5). -/
def iterativeParams : Params :=
  { sizeStrategy := .iterative, decodeStrategy := .iterative, latMax := 10, ovfBias := .two }

/-- Neither datapath a reference one, the least `LAT_MAX`, the other overflow bias (R5, R163). -/
def otherParams : Params :=
  { sizeStrategy := .other, decodeStrategy := .other, latMax := 1, ovfBias := .one }

/-- The reset state of a block with the given parameters. -/
def built (p : Params) : State := { State.reset with params := p }

/-- That block while a host offers the request with the given REQ word. -/
def offered (p : Params) (w : BitVec 150) : State := { built p with ports := InPorts.offering w }

/-- That block once the request is accepted. -/
def busyWith (p : Params) (w : BitVec 150) : State := (built p).accept (InPorts.offering w)

/-- That block with the response (300, 2, OK) of `DECODE [0xAC, 0x02]` posted. -/
def posted : State :=
  { built Params.default with
    done := true, opR := 0, bufR := #v[0xAC, 0x02, 0, 0, 0, 0, 0, 0, 0, 0], availR := 2
    resValue := 300, resCount := 2, resStatus := .ok }

/-- The state of an answer, if it is a next state. -/
def after (o : Host.Outcome State Fault Refusal) : Option State :=
  match o with
  | .next t => some t
  | .fault _ => none
  | .refused _ => none

/-- The response a state posts, if it posts one. -/
def response (s : State) : Option Rsp := if s.done && !s.busy then some s.rsp else none

/-- The response posted by an answer. -/
def answer (o : Host.Outcome State Fault Refusal) : Option Rsp := (after o).bind response

/-- A DECODE operand with the given valid length and bytes. -/
def window (len : BitVec 4) (bytes : List Byte) : Operands :=
  { x := 0, buf := Window.ofList bytes, len := len }

/-- n continuing bytes followed by the given ones. -/
def continuing (n : Nat) (bytes : List Byte) : List Byte := List.replicate n 0x80 ++ bytes

/-! ### Well-formed texts (R67) -/

theorem test_wf_accepts_len_15 : (Source.decodeLen 15 [0xFF]).wellFormed = true := by decide
theorem test_wf_rejects_len_16 : (Source.decodeLen 16 [0xFF]).wellFormed = false := by decide
theorem test_wf_rejects_eleven_window_bytes :
    (Source.decodeLen 10 [1, 1, 1, 1, 1, 1, 1, 1, 1, 1, 1]).wellFormed = false := by decide
theorem test_wf_rejects_byte_256_in_len_form : (Source.decodeLen 1 [256]).wellFormed = false := by decide
theorem test_wf_rejects_sixteen_listed_bytes :
    (Source.decodeList (List.replicate 16 1)).wellFormed = false := by decide
theorem test_wf_rejects_byte_256_in_list_form : (Source.decodeList [256]).wellFormed = false := by decide
theorem test_wf_rejects_size_2_64 : (Source.size (2 ^ 64)).wellFormed = false := by decide
theorem test_ill_formed_text_denotes_nothing : Source.assemble (.size (2 ^ 64)) = none := by decide

/-! ### Decoding (words of spec/95_test_vectors.md, sections 2 and 3) -/

theorem test_decode_word_decode :
    decodeTableWord 152 0x0800000000000000000AB00000000000000000 =
      some (.decode { x := 0, buf := #v[0xAC, 0x02, 0, 0, 0, 0, 0, 0, 0, 0], len := 2 }) := by decide
theorem test_decode_word_decode_padding :
    decodeTableWord 152 0x10000000000003FFFC06000000000000000000 =
      some (.decode { x := 0, buf := #v[0x80, 0x01, 0xFF, 0xFF, 0, 0, 0, 0, 0, 0], len := 4 }) := by decide
theorem test_decode_word_decode_tenth_byte :
    decodeTableWord 152 0x29FE0202020202020202000000000000000000 =
      some (.decode
        { x := 0, buf := #v[0x80, 0x80, 0x80, 0x80, 0x80, 0x80, 0x80, 0x80, 0x80, 0x7F], len := 10 }) := by
  decide
theorem test_decode_word_size :
    decodeTableWord 152 0x000000000000000000000000000000000004B1 =
      some (.size { x := 300, buf := #v[0, 0, 0, 0, 0, 0, 0, 0, 0, 0], len := 0 }) := by decide
theorem test_decode_word_size_with_dont_care_fields :
    decodeTableWord 152 0x3FFFFFFFFFFFFFFFFFFFFC0000000000000015 =
      some (.size
        { x := 5, buf := #v[0xFF, 0xFF, 0xFF, 0xFF, 0xFF, 0xFF, 0xFF, 0xFF, 0xFF, 0xFF], len := 15 }) := by
  decide
theorem test_decode_word_rsvd2 :
    decodeTableWord 152 0x00000000000000000000000000000000000002 =
      some (.rsvd2 { x := 0, buf := #v[0, 0, 0, 0, 0, 0, 0, 0, 0, 0], len := 0 }) := by decide
theorem test_decode_word_rsvd3 :
    decodeTableWord 152 0x3FFFFFFFFFFFFFFFFFFFFFFFFFFFFFFFFFFFFF =
      some (.rsvd3
        { x := 0xFFFFFFFFFFFFFFFF
          buf := #v[0xFF, 0xFF, 0xFF, 0xFF, 0xFF, 0xFF, 0xFF, 0xFF, 0xFF, 0xFF], len := 15 }) := by
  decide
/-- The word of program P5, back from its request. -/
theorem test_encode_decode_word :
    encode (.decode { x := 0, buf := #v[0x96, 0x01, 0x05, 0, 0, 0, 0, 0, 0, 0], len := 3 }) =
      0x0C000000000000001406580000000000000000#150 := by decide
theorem test_text_decode_p2 :
    (Source.assemble (.decodeLen 1 [0xAC])).map encode =
      some 0x04000000000000000002B00000000000000000#150 := by decide
theorem test_text_size_max :
    (Source.assemble (.size 18446744073709551615)).map encode =
      some 0x0000000000000000000003FFFFFFFFFFFFFFFD#150 := by decide
theorem test_decode_rejects_short_input : decodeBytes (List.replicate 18 0) = .rejected .tooFewBytes := by
  decide
theorem test_decode_rejects_bit_150 : decodeTableWord 152 (2 ^ 150) = none := by decide
theorem test_decode_rejects_bit_150_by_name :
    decodeBytes (List.replicate 18 0 ++ [0x40]) = .rejected .bitsAboveReq := by decide

/-! ### Sub-units (section 2.4) -/

theorem test_cont : [0x00, 0x01, 0x7F, 0x80, 0x81, 0xFF].map (fun b : Byte => cont b) =
    [false, false, false, true, true, true] := by decide
theorem test_grp : grp 0xAC = 0x2C ∧ grp 0xFF = 0x7F := by decide
theorem test_sh :
    sh 0x7F 0 = 0x7F ∧ sh 0xFF 1 = 0x3F80 ∧ sh 0x02 1 = 0x100 ∧ sh 0x81 8 = 0x0100000000000000 ∧
      sh 0xFF 8 = 0x7F00000000000000 ∧ sh 0x01 9 = 0x8000000000000000 ∧
      sh 0x03 9 = 0x8000000000000000 := by decide
theorem test_overflow_checker :
    [0x00, 0x01, 0x02, 0x03, 0x7F, 0x80, 0x81, 0xFF].map (fun b : Byte => overflowAt 9 b) =
      [false, false, true, true, true, true, true, true] := by decide
theorem test_short_detector :
    shortBuffer (window 0 []) 0 = true ∧ shortBuffer (window 3 []) 3 = true ∧
      shortBuffer (window 3 []) 2 = false ∧ shortBuffer (window 10 []) 9 = false := by decide
theorem test_enc : enc 16384 = [0x80, 0x80, 0x01] ∧
    enc 0x8000000000000000 = [0x80, 0x80, 0x80, 0x80, 0x80, 0x80, 0x80, 0x80, 0x80, 0x01] := by decide

/-- The codes of the table in R23. -/
theorem test_status_codes :
    Status.code .ok = 0b00#2 ∧ Status.code .short = 0b01#2 ∧ Status.code .overflow = 0b10#2 ∧
      Status.code .illegal = 0b11#2 := by decide

/-! ### One busy edge of each request kind (sections 2.1, 2.3, 2.5) -/

/-- `T_9` and `T_9 + 1` by the range comparator. -/
theorem test_exec_size_flat :
    answer (exec (.size { x := 0x7FFFFFFFFFFFFFFF, buf := Window.ofPort 0, len := 0 }) (built Params.default)) =
        some { value := 0, count := 9, status := .ok } ∧
      answer (exec (.size { x := 0x8000000000000000, buf := Window.ofPort 0, len := 0 }) (built Params.default)) =
        some { value := 0, count := 10, status := .ok } := by decide
/-- Edges 3 and 4 of program P1 by the bit counter; the remainder 0x2 then gives the count 2. -/
theorem test_exec_size_iterative :
    ((after (exec (.size { x := 300, buf := Window.ofPort 0, len := 0 })
        (busyWith iterativeParams 0x000000000000000000000000000000000004B1#150))).map
          fun t => (t.szRem, t.szCnt, t.busy, t.done)) = some (2, 1, true, false) ∧
      answer (exec (.size { x := 300, buf := Window.ofPort 0, len := 0 })
        { built iterativeParams with busy := true, szRem := 2, szCnt := 1 }) =
          some { value := 0, count := 2, status := .ok } := by decide
/-- OK, SHORT and OVERFLOW by the priority chain. -/
theorem test_exec_decode_unrolled :
    answer (exec (.decode (window 2 [0xAC, 0x02])) (built Params.default)) =
        some { value := 300, count := 2, status := .ok } ∧
      answer (exec (.decode (window 9 (continuing 9 [0x02]))) (built Params.default)) =
        some { value := 0, count := 0, status := .short } ∧
      answer (exec (.decode (window 10 (continuing 9 [0x02]))) (built Params.default)) =
        some { value := 0, count := 0xFFFFFFF5, status := .overflow } ∧
      answer (exec (.decode (window 12 (continuing 9 [0x01]))) (built Params.default)) =
        some { value := 0x8000000000000000, count := 10, status := .ok } := by decide
/-- Edges 6 and 7 of program P1 by the one-byte-per-edge decoder. -/
theorem test_exec_decode_iterative :
    ((after (exec (.decode (window 2 [0xAC, 0x02]))
        (busyWith iterativeParams 0x0800000000000000000AB00000000000000000#150))).map
          fun t => (t.idx, t.acc, t.busy, t.done)) = some (1, 0x2C, true, false) ∧
      answer (exec (.decode (window 2 [0xAC, 0x02]))
        { built iterativeParams with busy := true, idx := 1, acc := 0x2C }) =
          some { value := 0x12C, count := 2, status := .ok } := by decide
theorem test_exec_rsvd2 :
    answer (exec (.rsvd2 (window 15 [0xFF])) (built iterativeParams)) =
      some { value := 0, count := 0, status := .illegal } := by decide
theorem test_exec_rsvd3 :
    answer (exec (.rsvd3 (window 0 [])) (built Params.default)) =
      some { value := 0, count := 0, status := .illegal } := by decide

/-- At the `LAT_MAX`-th busy edge no draw is left, so a non-reference block answers (R163). -/
theorem test_exec_other_at_bound :
    answer (exec (.rsvd2 (window 0 [])) (built otherParams)) =
        some { value := 0, count := 0, status := .illegal } ∧
      answer (exec (.size { window 0 [] with x := 300 }) (built otherParams)) =
        some { value := 0, count := 2, status := .ok } ∧
      answer (exec (.decode (window 10 (continuing 9 [0x02]))) (built otherParams)) =
        some { value := 0, count := 0xFFFFFFF6, status := .overflow } := by decide
/-- R163: with busy edges left and a draw to wait, a non-reference block stays BUSY on RSVD3. -/
theorem test_exec_rsvd3_other_waits (h : Config.freeFinish 0 = false) :
    exec (.rsvd3 (window 0 [])) (built { otherParams with latMax := 2 }) =
      .next (built { otherParams with latMax := 2 }).stayBusy := by
  simp [exec, execRsvd3, State.illegalStep, State.finishOrWait, built, State.reset, otherParams, h]

/-! ### Edges -/

theorem test_reset_state_is_idle_and_ready :
    State.reset.phase = some .idle ∧ State.reset.reqReady = true := by decide
/-- R157: from a power-up state outside every phase, one reset edge leaves the block idle and ready. -/
theorem test_boot_from_power_up :
    ((after (boot { posted with busy := true, idx := 15, availR := 15 })).map
      fun t => (t.phase, t.reqReady)) = some (some .idle, true) := by decide
/-- Edge 16 of program P3: reset wins over the busy step, and over the request still offered. -/
theorem test_step_reset_wins :
    ((after (step
      { busyWith iterativeParams 0x28060202020202020202000000000000000000#150 with
        ports := { InPorts.offering 0x28060202020202020202000000000000000000#150 with rst := true } })).map
          fun t => (t.busy, t.done, t.resValue, t.resCount, t.resStatus)) =
      some (false, false, 0, 0, .ok) := by decide
/-- Edge 2 of program P1. -/
theorem test_step_accepts :
    ((after (step (offered iterativeParams 0x000000000000000000000000000000000004B1#150))).map
      fun t => (t.busy, t.done, t.opR, t.xR, t.szRem)) = some (true, false, 1, 300, 300) := by decide
/-- R26: an idle edge keeps a posted response. -/
theorem test_step_idle_keeps_response :
    answer (step posted) = some { value := 300, count := 2, status := .ok } := by decide
/-- The host's question: the very next step runs the word. -/
theorem test_withFetchWord_runs_decode :
    answer (step (State.reset.withFetchWord 152 0x0800000000000000000AB00000000000000000)) =
      some { value := 300, count := 2, status := .ok } := by decide
theorem test_withFetchWord_runs_rsvd3 :
    answer (step (State.reset.withFetchWord 152 0x00000000000000000000000000000000000003)) =
      some { value := 0, count := 0, status := .illegal } := by decide

/-! ### The host's tag parser (section 2.6) -/

theorem test_parseTag_two_bytes :
    parseTag .two [0x82, 0x01] = { fieldNumber := 16, wireType := 2, consumed := 2 } := by decide
theorem test_parseTag_keeps_wire_type_5_rejects_6 :
    parseTag .two [0x2D] = { fieldNumber := 5, wireType := 5, consumed := 1 } ∧
      parseTag .two [0x2E] = Tag.rejected ∧ parseTag .two [0x07] = Tag.rejected ∧
      parseTag .two [0x08] = { fieldNumber := 1, wireType := 0, consumed := 1 } := by decide

/-! ### Witnesses: the hypotheses of each obligation hold together, at the edges of their ranges -/

theorem witness_WindowBytesOnThePort : (9 : Nat) < 10 ∧ (0 : Nat) < 10 := by decide

theorem witness_OpCodeSelectsTheOperation :
    (0#150).extractLsb' 0 2 = 0b00#2 ∧ (1#150).extractLsb' 0 2 = 0b01#2 ∧
      (2#150).extractLsb' 0 2 = 0b10#2 ∧ (BitVec.allOnes 150).extractLsb' 0 2 = 0b11#2 := by decide

theorem witness_TextFormsDenoteReqWords :
    (15 < 16 ∧ (List.replicate 10 255).length ≤ 10 ∧ ∀ b ∈ List.replicate 10 255, b < 256) ∧
      2 ^ 64 - 1 < 2 ^ 64 := by decide

theorem witness_PseudoFormKeepsTheFirstTenBytes :
    ((List.replicate 15 255).length ≤ 15 ∧ ∀ b ∈ List.replicate 15 255, b < 256) ∧
      ([] : List Nat).length ≤ 15 := by decide

theorem witness_LengthsFromTenMeanTen : 10 ≤ (10#4).toNat ∧ 10 ≤ (15#4).toNat := by decide

theorem witness_UnreadFieldsChangeNothing :
    (({ window 3 [1] with x := 7 } : Operands).buf = (window 3 [1]).buf ∧
        ({ window 3 [1] with x := 7 } : Operands).len = (window 3 [1]).len ∧
        ({ window 3 [1] with x := 7 } : Operands) ≠ window 3 [1]) ∧
      (window 3 [1]).x = (window 15 [9]).x ∧ window 3 [1] ≠ window 15 [9] := by decide

theorem witness_SizeIsTheLeastClass :
    (size 0x7F = 1 ∧ (1 : Nat) ≤ 9) ∧ (size 0x7FFFFFFFFFFFFFFF = 9 ∧ 1 ≤ (9 : Nat)) ∧
      size 0x8000000000000000 = 10 := by decide

theorem witness_SizeClassesAndTheirBounds :
    size 0x7F = 1 ∧ size 0x80 = 2 ∧ size (BitVec.ofNat 64 (threshold 9)) = 9 ∧
      size (BitVec.ofNat 64 (threshold 10)) = 10 := by decide

theorem witness_SizeAtEveryBound : (1 ≤ 1 ∧ 1 ≤ 9) ∧ 1 ≤ 9 ∧ 9 ≤ 9 := by decide

theorem witness_SizeIsSevenBitGroupsOfTheBitLength : (127#64).toNat ≤ (128#64).toNat := by decide

theorem witness_FlatSizeEdgeFinishes :
    (built Params.default).params.sizeStrategy = .flat ∧ (127#64).toNat ≤ threshold 1 := by decide

theorem witness_FlatSizePostsTheContract : (built Params.default).params.sizeStrategy = .flat := by decide

theorem witness_IterativeSizeEdge_registers :
    (offered iterativeParams 0x00000000000000000000020000000000000001#150).Accepts ∧
      (offered iterativeParams 0x00000000000000000000020000000000000001#150).ports.reqOp = 0b01#2 ∧
      (offered iterativeParams 0x00000000000000000000020000000000000001#150).params.sizeStrategy = .iterative ∧
      10 ≤ size (offered iterativeParams 0x00000000000000000000020000000000000001#150).ports.reqX ∧
      (offered iterativeParams 0x00000000000000000000020000000000000001#150).NoResetFor 10 := by decide

theorem witness_IterativeSizeEdge_finishes_and_goes_on :
    (built iterativeParams).params.sizeStrategy = .iterative ∧ (0x7F#64) >>> 7 = 0 ∧
      ({ built iterativeParams with szRem := 0x7F } : State).szRem >>> 7 = 0 ∧
      ({ built iterativeParams with szRem := 0x80 } : State).szRem >>> 7 ≠ 0 := by decide

theorem witness_SizeStrategiesPostTheSameResponse :
    ((offered Params.default 0x000000000000000000000000000000000004B1#150).Accepts ∧
        (offered Params.default 0x000000000000000000000000000000000004B1#150).ports.reqOp = 0b01#2 ∧
        (offered Params.default 0x000000000000000000000000000000000004B1#150).NoResetFor 3 ∧
        (offered Params.default 0x000000000000000000000000000000000004B1#150).params.sizeStrategy = .flat) ∧
      (offered iterativeParams 0x000000000000000000000000000000000004B1#150).Accepts ∧
      size (offered iterativeParams 0x000000000000000000000000000000000004B1#150).ports.reqX + 1 = 3 ∧
      (offered iterativeParams 0x000000000000000000000000000000000004B1#150).NoResetFor 3 ∧
      (offered iterativeParams 0x000000000000000000000000000000000004B1#150).params.sizeStrategy = .iterative := by
  decide

/-- OK at the first byte, OK at the tenth, SHORT with nine bytes and with none, OVERFLOW. -/
theorem witness_DecodeResponseByCases :
    (1 ≤ avail (window 1 [0x7F]) ∧ cont (memRead (window 1 [0x7F]) 0) = false) ∧
      (10 ≤ avail (window 15 (continuing 9 [0x01])) ∧
        (∀ j, j < 9 → cont (memRead (window 15 (continuing 9 [0x01])) j) = true) ∧
        cont (memRead (window 15 (continuing 9 [0x01])) 9) = false ∧
        (memRead (window 15 (continuing 9 [0x01])) 9).toNat ≤ 1) ∧
      (avail (window 9 (continuing 9 [])) ≤ 9 ∧
        ∀ j, j < avail (window 9 (continuing 9 [])) → cont (memRead (window 9 (continuing 9 [])) j) = true) ∧
      avail (window 0 []) ≤ 9 ∧
      (avail (window 10 (continuing 9 [0x02])) = 10 ∧
        (∀ j, j < 9 → cont (memRead (window 10 (continuing 9 [0x02])) j) = true) ∧
        1 < (memRead (window 10 (continuing 9 [0x02])) 9).toNat) := by decide

theorem witness_DecodeOkLaws :
    decodeVarint .one (window 2 [0xAC, 0x02]) = { value := 300, count := 2, status := .ok } ∧
      decodeVarint .one (window 10 (continuing 9 [0x01])) =
        { value := 0x8000000000000000, count := 10, status := .ok } := by decide

theorem witness_EveryRequestHasOneResponseKind :
    (respond .two (.decode (window 1 [0]))).status = .ok ∧ (respond .two (.size (window 0 []))).status = .ok ∧
      (respond .two (.decode (window 0 []))).status = .short ∧
      (respond .one (.decode (window 10 (continuing 10 [])))).status = .overflow ∧
      (respond .two (.rsvd2 (window 0 []))).status = .illegal ∧
      (respond .two (.rsvd3 (window 0 []))).status = .illegal := by decide

/-- Windows that differ from the byte after the terminator on, and ones that differ past the valid bytes. -/
theorem witness_BytesPastTheStopDoNotMatter :
    (avail (window 4 [0x80, 0x01, 0xFF]) = avail (window 4 [0x80, 0x01, 0x00]) ∧
        (∀ j, j ≤ min (stopIndex (window 4 [0x80, 0x01, 0xFF])) (avail (window 4 [0x80, 0x01, 0xFF]) - 1) →
          j < avail (window 4 [0x80, 0x01, 0xFF]) →
            memRead (window 4 [0x80, 0x01, 0xFF]) j = memRead (window 4 [0x80, 0x01, 0x00]) j) ∧
        window 4 [0x80, 0x01, 0xFF] ≠ window 4 [0x80, 0x01, 0x00]) ∧
      avail (window 0 [0x05]) = avail (window 0 [0x80]) ∧
      ∀ j, j ≤ min (stopIndex (window 0 [0x05])) (avail (window 0 [0x05]) - 1) →
        j < avail (window 0 [0x05]) → memRead (window 0 [0x05]) j = memRead (window 0 [0x80]) j := by decide

theorem witness_ByteShifterPlacesTheGroup :
    (9 : Nat) ≤ 9 ∧ (8 : Nat) ≤ 8 ∧ overflowAt 9 0x01 = false ∧ overflowAt 9 0x00 = false := by decide

theorem witness_AccumulatedGroupsAreASum :
    (shortBuffer (window 10 (continuing 9 [0x01])) 9 = false ∧
        overflowAt 9 (memRead (window 10 (continuing 9 [0x01])) 9) = false) ∧
      (9 : Nat) ≤ 9 ∧ (decodeVarint .two (window 0 [])).status ≠ .ok := by decide

theorem witness_OverflowCheckerAtTheTenthByte :
    (8 : Nat) < 9 ∧ shortBuffer (window 10 (continuing 9 [0x02])) 9 = false ∧
      1 < (memRead (window 10 (continuing 9 [0x02])) 9).toNat := by decide

theorem witness_OverflowCountPatterns :
    (decodeVarint .one (window 10 (continuing 9 [0x02]))).status = .overflow := by decide

theorem witness_UnrolledDecodeEdgeFinishes : (built Params.default).params.decodeStrategy = .unrolled := by decide

/-- Each of the four clauses, at indices 0 and 9. -/
theorem witness_IterativeDecodeEdge :
    (built iterativeParams).params.decodeStrategy = .iterative ∧
      (avail (window 0 []) ≤ (built iterativeParams).idx.toNat) ∧
      (({ built iterativeParams with idx := 9 } : State).idx.toNat < avail (window 10 (continuing 9 [0x02])) ∧
        1 < (memRead (window 10 (continuing 9 [0x02])) 9).toNat) ∧
      (({ built iterativeParams with idx := 9 } : State).idx.toNat < avail (window 10 (continuing 9 [0x01])) ∧
        ¬1 < (memRead (window 10 (continuing 9 [0x01])) 9).toNat ∧
        (memRead (window 10 (continuing 9 [0x01])) 9).getLsbD 7 = false) ∧
      ((built iterativeParams).idx.toNat < avail (window 1 [0x80]) ∧
        ¬((built iterativeParams).idx.toNat = 9 ∧ 1 < (memRead (window 1 [0x80]) 0).toNat) ∧
        (memRead (window 1 [0x80]) 0).getLsbD 7 = true) := by decide

theorem witness_DecodeStrategiesPostTheSameResponse :
    ((offered Params.default 0x0800000000000000000AB00000000000000000#150).Accepts ∧
        (offered Params.default 0x0800000000000000000AB00000000000000000#150).ports.reqOp = 0b00#2 ∧
        (offered Params.default 0x0800000000000000000AB00000000000000000#150).NoResetFor 3 ∧
        (offered Params.default 0x0800000000000000000AB00000000000000000#150).params.decodeStrategy = .unrolled) ∧
      (offered iterativeParams 0x0800000000000000000AB00000000000000000#150).Accepts ∧
      stopIndex (offered iterativeParams 0x0800000000000000000AB00000000000000000#150).ports.offered.fields + 2 = 3 ∧
      (offered iterativeParams 0x0800000000000000000AB00000000000000000#150).NoResetFor 3 ∧
      (offered iterativeParams 0x0800000000000000000AB00000000000000000#150).params.decodeStrategy = .iterative := by
  decide

theorem witness_DecodeStopIndexByKind :
    (decodeVarint .two (window 10 (continuing 9 [0x00]))).status = .ok ∧
      (decodeVarint .two (window 9 (continuing 9 []))).status = .short ∧
      (decodeVarint .two (window 10 (continuing 10 []))).status = .overflow := by decide

theorem witness_CanonicalEncodingIsAVarintOfItsValue : (enc 0xFFFFFFFFFFFFFFFF).length = 10 := by decide

theorem witness_EncodedValueDecodesToItself :
    size 0 ≤ (1#4).toNat ∧ size 0xFFFFFFFFFFFFFFFF ≤ (10#4).toNat := by decide

theorem witness_TruncatedEncodingIsShort :
    (0#4).toNat + 1 = size 0 ∧ (9#4).toNat + 1 = size 0xFFFFFFFFFFFFFFFF := by decide

theorem witness_WideBuffersOverflow :
    (10 ≤ (continuing 11 []).length ∧ (∀ j, j < 9 → cont ((continuing 11 []).getD j 0) = true) ∧
        cont ((continuing 11 []).getD 9 0) = true) ∧
      10 ≤ (continuing 9 [0x02]).length ∧ (∀ j, j < 9 → cont ((continuing 9 [0x02]).getD j 0) = true) ∧
      0x02 ≤ ((continuing 9 [0x02]).getD 9 0).toNat ∧ ((continuing 9 [0x02]).getD 9 0).toNat ≤ 0x7F := by decide

theorem witness_OtherImplementationsFinishOrWait :
    ((Instr.decode (window 0 [])).op = 0b00#2 ∧ (built otherParams).params.decodeStrategy = .other) ∧
      ((Instr.size (window 0 [])).op = 0b01#2 ∧ (built otherParams).params.sizeStrategy = .other) ∧
      ((Instr.rsvd2 (window 0 [])).op = 0b10#2 ∧ (Instr.rsvd3 (window 0 [])).op = 0b11#2 ∧
        ¬(built otherParams).Reference ∧
        ¬(built { Params.default with decodeStrategy := .other }).Reference) ∧
      (built otherParams).params.latMax ≤ (built otherParams).waited + 1 := by decide

theorem witness_ReservedRequestsAnswerIllegal :
    (built Params.default).Reference ∧ (built iterativeParams).Reference ∧
      (built otherParams).params.latMax ≤ (built otherParams).waited + 1 := by decide

/-- A staying edge of the iterative decoder, and a finishing edge. -/
theorem witness_BusyEdgeFrame :
    (∃ t, exec (.decode (window 1 [0x80])) (built iterativeParams) = .next t ∧ t.idx = 1) ∧
      (∃ t, exec (.rsvd2 (window 0 [])) (built iterativeParams) = .next t) ∧
      ¬((Instr.rsvd2 (window 0 [])).op = 0b00#2 ∧ (built iterativeParams).params.decodeStrategy = .iterative) ∧
      ¬((Instr.rsvd2 (window 0 [])).op = 0b01#2 ∧ (built iterativeParams).params.sizeStrategy = .iterative) :=
  ⟨⟨_, rfl, by decide⟩, ⟨_, rfl⟩, by decide, by decide⟩

theorem witness_BusyStepRunsTheDecodedRequest :
    (busyWith iterativeParams 0x00000000000000000000000000000000000003#150).ports.rst = false ∧
      (busyWith iterativeParams 0x00000000000000000000000000000000000003#150).busy = true ∧
      decodeReq (busyWith iterativeParams 0x00000000000000000000000000000000000003#150).latchedWord =
        .rsvd3 (window 0 []) ∧
      ∃ t, exec (.rsvd3 (window 0 []))
        (busyWith iterativeParams 0x00000000000000000000000000000000000003#150) = .next t :=
  ⟨rfl, rfl, by decide, _, rfl⟩

theorem witness_OfferedRequestRunsAtTheNextEdge :
    (offered Params.default 3#150).Accepts ∧ (offered Params.default 3#150).NoResetFor 2 := by decide

/-- Acceptance in IDLE and in DONE. -/
theorem witness_AcceptanceLatchesTheRequest :
    (offered Params.default 3#150).Accepts ∧
      ({ posted with ports := InPorts.offering 3#150 } : State).Accepts := by decide

/-- Ready with a request offered, BUSY with one offered, and in reset with one offered. -/
theorem witness_ReadyMeansTaken :
    ((offered Params.default 3#150).ports.reqValid = true ∧ (offered Params.default 3#150).reqReady = true) ∧
      (({ busyWith Params.default 3#150 with ports := InPorts.offering 2#150 } : State).ports.rst = false ∧
        ({ busyWith Params.default 3#150 with ports := InPorts.offering 2#150 } : State).busy = true) ∧
      ({ built Params.default with ports := { InPorts.offering 3#150 with rst := true } } : State).ports.rst =
        true := by decide

theorem witness_BusyBlockIgnoresItsPorts :
    (busyWith Params.default 3#150).busy = true ∧ (busyWith Params.default 3#150).ports.rst = false ∧
      (InPorts.offering 2#150).rst = false := by decide

theorem witness_IdleEdgesChangeNoRegister : posted.busy = false ∧ posted.QuietFor 5 := by decide

/-- A reset while BUSY, with a request still offered. -/
theorem witness_ResetEdgeClearsTheBlock :
    ({ busyWith Params.default 3#150 with ports := { InPorts.offering 3#150 with rst := true } } : State).ports.rst =
      true := by decide

theorem witness_ResetAbandonsTheRequest :
    ({ busyWith Params.default 3#150 with ports := InPorts.resetting, script := [InPorts.resetting] } : State).ports.rst =
        true ∧
      ∀ p ∈ ({ busyWith Params.default 3#150 with
        ports := InPorts.resetting, script := [InPorts.resetting] } : State).script.take 3, p.reqValid = false := by
  decide

/-- The posted response is the latched request's, so the state meets the invariant. -/
theorem witness_PostedResponseStaysOnTheOutputs : posted.Inv ∧ posted.done = true ∧ posted.QuietFor 5 := by
  refine ⟨⟨by decide, by decide, ?_, ?_, ?_, ?_, ?_, ?_, fun _ => by decide⟩, by decide, by decide⟩ <;>
    (intro h; cases h)

theorem witness_AnyStateIsResetIntoTheInvariant :
    ({ posted with busy := true, idx := 15, ports := InPorts.resetting } : State).params.Legal ∧
      ({ posted with busy := true, idx := 15, ports := InPorts.resetting } : State).ports.rst = true := by decide

theorem witness_EveryEdgeKeepsTheInvariant : State.reset.Inv ∧ ∃ t, step State.reset = .next t := by
  refine ⟨⟨by decide, by decide, ?_, ?_, ?_, ?_, ?_, ?_, ?_⟩, _, rfl⟩ <;> (intro h; cases h)

theorem witness_EveryRequestIsAnsweredInTime :
    (offered otherParams 3#150).params.Legal ∧ (offered otherParams 3#150).Accepts ∧
      (offered otherParams 3#150).NoResetFor 2 := by decide

theorem witness_ReferenceBlocksPostAtTheTabulatedEdge :
    (Params.default.sizeStrategy = .flat ∧ Params.default.decodeStrategy = .unrolled) ∧
      (iterativeParams.sizeStrategy = .iterative ∧ iterativeParams.decodeStrategy = .iterative) ∧
      (offered iterativeParams 0x28060202020202020202000000000000000000#150).Accepts ∧
      (offered iterativeParams 0x28060202020202020202000000000000000000#150).params.decodeStrategy ≠ .other ∧
      (offered iterativeParams 0x28060202020202020202000000000000000000#150).params.sizeStrategy ≠ .other ∧
      referenceLatency iterativeParams
        (offered iterativeParams 0x28060202020202020202000000000000000000#150).ports.offered = 10 ∧
      (offered iterativeParams 0x28060202020202020202000000000000000000#150).NoResetFor 11 := by decide

theorem witness_HostProgramGetsEveryResponse :
    (built otherParams).params.Legal ∧ (built otherParams).busy = false ∧
      [Instr.size (window 0 []), Instr.rsvd2 (window 0 [])].getLast? = some (.rsvd2 (window 0 [])) := by decide

/-- Each clause: a count that is not positive, field number 0, wire type 6, and a valid tag at both bounds. -/
theorem witness_TagParserFollowsTheResponse :
    (shortResponse.count ≤ 0) ∧
      (0 < (okResponse 7 1).count ∧ ((okResponse 7 1).value >>> 3).toInt ≤ 0) ∧
      (0 < (okResponse 46 1).count ∧ 5 < (okResponse 46 1).value.toNat % 8) ∧
      (0 < (okResponse 13 1).count ∧ 0 < ((okResponse 13 1).value >>> 3).toInt ∧
        (okResponse 13 1).value.toNat % 8 ≤ 5) := by decide

/-- Wire type 5 with field numbers 0 and 1: the values 5, rejected, and 13, not. -/
theorem witness_OnlyFieldNumberZeroIsRejected :
    (0 < (okResponse 5 1).count ∧ (okResponse 5 1).value.toNat % 8 ≤ 5 ∧ (okResponse 5 1).value.toNat ≤ 7) ∧
      0 < (okResponse 13 1).count ∧ (okResponse 13 1).value.toNat % 8 ≤ 5 ∧
      ¬(okResponse 13 1).value.toNat ≤ 7 := by decide

theorem witness_EncodedTagParsesToItself :
    (0 < (1#64).toNat ∧ (1#64).toNat < 2 ^ 61 ∧ (5#3).toNat ≤ 5) ∧
      0 < (0x1FFFFFFFFFFFFFFF#64).toNat ∧ (0x1FFFFFFFFFFFFFFF#64).toNat < 2 ^ 61 := by decide

end Sys2Proof.Tests
end

section
/-! SUPPORT. One equation per kind of edge (R8, R137), what a busy edge can leave behind (R29), and quiet edges (R26);
with the obligations on the state of the block (spec/10_state.md) that follow from them. -/

namespace Sys2Proof.Machine

/-! ### One equation per kind of edge -/

/-- Reset wins over everything else (R137). -/
theorem step_of_rst {s : State} (hr : s.ports.rst = true) : step s = .next s.resetEdge.tick := by
  simp [step, hr]

/-- The busy edge runs the latched request (R29). -/
theorem step_of_busy {s : State} (hr : s.ports.rst = false) (hb : s.busy = true) :
    step s = tickOutcome (exec s.latched s) := by
  simp [step, hr, hb]

/-- The acceptance edge (R28). -/
theorem step_of_offer {s : State} (hr : s.ports.rst = false) (hb : s.busy = false)
    (hv : s.ports.reqValid = true) : step s = .next (s.accept s.ports).tick := by
  simp [step, hr, hb, hv]

/-- The idle edge (R26). -/
theorem step_of_quiet {s : State} (hr : s.ports.rst = false) (hb : s.busy = false)
    (hv : s.ports.reqValid = false) : step s = .next s.tick := by
  simp [step, hr, hb, hv]

@[simp] theorem tickOutcome_next (t : State) : tickOutcome (.next t) = .next t.tick := rfl

/-- R27: the block is ready when it is neither BUSY nor in reset. -/
theorem State.reqReady_iff (s : State) : s.reqReady = true ↔ s.busy = false ∧ s.ports.rst = false := by
  simp [State.reqReady]

theorem State.reqReady_of_busy {s : State} (hb : s.busy = true) : s.reqReady = false := by
  simp [State.reqReady, hb]

theorem State.reqReady_of_rst {s : State} (hr : s.ports.rst = true) : s.reqReady = false := by
  simp [State.reqReady, hr]

/-! ### What a busy edge can leave behind -/

/-- A busy edge of s leaves t: it calls `finish`, or the block stays BUSY and at most its datapath registers move (R29). -/
def State.BusyEdge (s t : State) : Prop :=
  (∃ r, t = s.finish r) ∨
    ∃ acc idx szRem szCnt,
      t = { s.stayBusy with acc := acc, idx := idx, szRem := szRem, szCnt := szCnt }

namespace State.BusyEdge

theorem finish (s : State) (r : Response) : s.BusyEdge (s.finish r) := .inl ⟨r, rfl⟩

theorem stayBusy (s : State) : s.BusyEdge s.stayBusy := .inr ⟨_, _, _, _, rfl⟩

theorem finishOrWait (s : State) (r : Response) : s.BusyEdge (s.finishOrWait r) := by
  obtain h | ⟨-, h⟩ := s.finishOrWait_cases r
  · exact h ▸ finish s r
  · exact h ▸ stayBusy s

theorem sizeIterate (s : State) : s.BusyEdge s.sizeIterate := by
  obtain ⟨-, h⟩ | ⟨-, h⟩ := s.sizeIterate_cases
  · exact h ▸ finish s _
  · exact .inr ⟨_, _, _, _, h⟩

theorem decodeIterate (s : State) (f : Operands) : s.BusyEdge (s.decodeIterate f) := by
  obtain ⟨r, -, h⟩ | ⟨a, -, h⟩ := s.decodeIterate_cases f
  · exact h ▸ finish s r
  · exact .inr ⟨_, _, _, _, h⟩

theorem illegalStep (s : State) : s.BusyEdge s.illegalStep := by
  obtain h | ⟨-, -, h⟩ := s.illegalStep_cases
  · exact h ▸ finish s _
  · exact h ▸ stayBusy s

/-- No busy edge writes an operand latch (R19). -/
theorem keeps_latches {s t : State} (h : s.BusyEdge t) :
    t.opR = s.opR ∧ t.xR = s.xR ∧ t.bufR = s.bufR ∧ t.availR = s.availR := by
  obtain ⟨r, rfl⟩ | ⟨acc, idx, szRem, szCnt, rfl⟩ := h
  · exact ⟨rfl, rfl, rfl, rfl⟩
  · exact ⟨rfl, rfl, rfl, rfl⟩

end State.BusyEdge

theorem execDecode_busyEdge (f : Operands) (s : State) : ∃ t, execDecode f s = .next t ∧ s.BusyEdge t := by
  unfold execDecode
  cases s.params.decodeStrategy with
  | unrolled => exact ⟨_, rfl, .finish s _⟩
  | iterative => exact ⟨_, rfl, .decodeIterate s f⟩
  | other => exact ⟨_, rfl, .finishOrWait s _⟩

theorem execSize_busyEdge (f : Operands) (s : State) : ∃ t, execSize f s = .next t ∧ s.BusyEdge t := by
  unfold execSize
  cases s.params.sizeStrategy with
  | flat => exact ⟨_, rfl, .finish s _⟩
  | iterative => exact ⟨_, rfl, .sizeIterate s⟩
  | other => exact ⟨_, rfl, .finishOrWait s _⟩

/-- Every request kind answers with a next state, and what it leaves is what a busy edge can leave. -/
theorem exec_busyEdge (i : Instr) (s : State) : ∃ t, exec i s = .next t ∧ s.BusyEdge t := by
  cases i with
  | decode f => exact execDecode_busyEdge f s
  | size f => exact execSize_busyEdge f s
  | rsvd2 f => exact ⟨_, rfl, .illegalStep s⟩
  | rsvd3 f => exact ⟨_, rfl, .illegalStep s⟩

/-! ### Quiet edges -/

/-- A host that is quiet for n + 1 edges is quiet at the first. -/
theorem State.QuietFor.head {s : State} {n : Nat} (h : s.QuietFor (n + 1)) :
    s.ports.rst = false ∧ s.ports.reqValid = false :=
  h s.ports (by simp [State.levels])

/-- A host that is quiet for n + 1 edges is quiet for n edges after an idle one, whether its script has ended or not. -/
theorem State.QuietFor.tick {s : State} {n : Nat} (h : s.QuietFor (n + 1)) : s.tick.QuietFor n := by
  intro p hp
  obtain rfl | hp := levels_tick_mem n p rfl hp
  · exact ⟨rfl, rfl⟩
  · exact h p (mem_levels_of_mem_script n p hp)

/-! ### The obligations -/

/-- Settles O45, by induction on the number of edges: each is an idle edge, which moves the host levels only. -/
theorem idleEdgesChangeNoRegister : Obligations.IdleEdgesChangeNoRegister := by
  unfold Obligations.IdleEdgesChangeNoRegister
  intro n
  induction n with
  | zero => exact fun s _ _ => ⟨s, rfl, s.ports, s.script, rfl⟩
  | succ n ih =>
    intro s hb hq
    obtain ⟨hr, hv⟩ := hq.head
    obtain ⟨t, ht, ps, scr, rfl⟩ := ih s.tick hb hq.tick
    refine ⟨_, (edges_succ n (step_of_quiet hr hb hv)).trans ht, ps, scr, ?_⟩
    have hd : s.tick.draws + n = s.draws + (n + 1) := by simp only [State.tick_draws]; omega
    rw [hd]
    rfl

/-- Settles O42: the edge is the acceptance edge, and its operation loads each register as R28 says. -/
theorem acceptanceLatchesTheRequest : Obligations.AcceptanceLatchesTheRequest := by
  unfold Obligations.AcceptanceLatchesTheRequest
  intro s hr hb hv
  exact ⟨_, step_of_offer hr hb hv, rfl, rfl, Window.ofPort_getElem s.ports.reqBuf,
    availBits_toNat s.ports.reqLen, rfl, rfl, rfl, rfl, rfl, rfl, rfl⟩

/-- Settles O43: one clause for each kind of edge at which a request may be offered. -/
theorem readyMeansTaken : Obligations.ReadyMeansTaken := by
  unfold Obligations.ReadyMeansTaken
  intro s
  refine ⟨s.reqReady_iff, fun hv hready => ?_, fun hr hb => ?_, fun hr => ?_⟩
  · obtain ⟨hb, hr⟩ := s.reqReady_iff.mp hready
    exact step_of_offer hr hb hv
  · have hstep := step_of_busy hr hb
    obtain ⟨t, ht, hedge⟩ := exec_busyEdge s.latched s
    refine ⟨State.reqReady_of_busy hb, hstep, t.tick, ?_, hedge.keeps_latches⟩
    rw [hstep, ht, tickOutcome_next]
  · exact ⟨State.reqReady_of_rst hr, _, step_of_rst hr, rfl, rfl⟩

end Sys2Proof.Machine
end

section
/-! SUPPORT. The window on the port as ten bytes (R43), and what a DECODE response reads of it (R40); with the obligations
on the operand memory (spec/20_memory.md). -/

namespace Sys2Proof

/-- The port value of a window weighs byte k by 2^(8k) (R43). -/
theorem Window.toPort_toNat_eq_sum (w : Window) :
    (Window.toPort w).toNat = ∑ k : Fin 10, w[k].toNat * 2 ^ (8 * (k : Nat)) := by
  simp only [Window.toPort_toNat, Fin.sum_univ_castSucc, Fin.getElem_fin, Fin.val_castSucc, Fin.val_last,
    Finset.univ_eq_empty, Finset.sum_empty]
  omega

/-- Two concatenations of fields of the same widths are equal exactly when the fields are. -/
theorem append_eq_append_iff {m n : Nat} (x x' : BitVec m) (y y' : BitVec n) :
    x ++ y = x' ++ y' ↔ x = x' ∧ y = y' := by
  refine ⟨fun h => ?_, fun ⟨hx, hy⟩ => hx ▸ hy ▸ rfl⟩
  have hy : y = y' := by simpa only [extract_append_low] using congrArg (·.extractLsb' 0 n) h
  subst hy
  exact ⟨(BitVec.append_left_inj y).mp h, rfl⟩

/-- Settles O5: each byte is its field of the port, the port value is their weighted sum, and the low sixteen bits are
bytes 1 and 0 joined. -/
theorem windowBytesOnThePort : Obligations.WindowBytesOnThePort := by
  unfold Obligations.WindowBytesOnThePort
  refine ⟨Window.ofPort_getElem, Window.toPort_toNat_eq_sum, fun p => ?_⟩
  have hbytes : p.extractLsb' 8 8 ++ p.extractLsb' 0 8 = p.extractLsb' 0 16 :=
    BitVec.extractLsb'_append_extractLsb'_eq_extractLsb' rfl
  have hconst : 0x01#8 ++ 0x80#8 = 0x0180#16 := rfl
  rw [← hbytes, ← hconst, append_eq_append_iff, Window.ofPort_getElem, Window.ofPort_getElem]
  exact and_comm

end Sys2Proof

namespace Sys2Proof.Machine

/-- An index up to the stop at which no check fires is before the stop. -/
theorem lt_stopIndex {f : Operands} {i : Nat} (hi : i ≤ stopIndex f) (hs : stopsAt f i = false) :
    i < stopIndex f := by
  obtain ⟨-, hstop, -⟩ := stopIndex_spec f
  refine Nat.lt_of_le_of_ne hi fun h => ?_
  simp [h, hstop] at hs

/-- Windows that agree on the valid bytes up to the stop of the first go through the same loop of R92, from any index up
to that stop: each index reads only its own byte, and the loop ends at the stop. -/
theorem decodeLoop_congr_upto_stop (bias : OvfBias) (f g : Operands) (ha : avail f = avail g)
    (hb : ∀ j ≤ stopIndex f, j < avail f → memRead f j = memRead g j) (n i : Nat) (a : U64)
    (hi : i ≤ stopIndex f) : decodeLoop bias f n i a = decodeLoop bias g n i a := by
  induction n generalizing i a with
  | zero => rfl
  | succ n ih =>
    rw [decodeLoop, decodeLoop, ← examine_reads_valid_bytes bias f g i a ha (hb i hi), examine_eq]
    cases hs : stopsAt f i with
    | true => rfl
    | false => exact ih (i + 1) _ (lt_stopIndex hi hs)

/-- Settles O24: a valid byte up to the stop is one of those the two windows share, so their loops answer the same. -/
theorem bytesPastTheStopDoNotMatter : Obligations.BytesPastTheStopDoNotMatter := by
  unfold Obligations.BytesPastTheStopDoNotMatter
  intro bias f g ha hb
  exact decodeLoop_congr_upto_stop bias f g ha (fun j hj hlt => hb j (by omega) hlt) 10 0 0 (Nat.zero_le _)

end Sys2Proof.Machine
end

section
/-! SUPPORT. The REQ word as the join of its four fields (R53), the RSP word (R54), the texts as REQ words (R68), and
what a DECODE edge reads of its operands (R55, R60); with the obligations on the request encoding
(spec/30_encoding.md). -/

namespace Sys2Proof

/-! ### The REQ word -/

/-- Four fields joined in the order of R53, `op` lowest. The encoder and the ports both join their fields this way. -/
def joinFields (len : BitVec 4) (buf : BitVec 80) (x : U64) (op : BitVec 2) : BitVec 150 :=
  len ++ (buf ++ (x ++ op))

theorem encode_eq_joinFields (i : Instr) :
    encode i = joinFields i.fields.len (Window.toPort i.fields.buf) i.fields.x i.op := rfl

theorem Machine.InPorts.word_eq_joinFields (p : Machine.InPorts) :
    p.word = joinFields p.reqLen p.reqBuf p.reqX p.reqOp := rfl

section JoinFields

variable (len : BitVec 4) (buf : BitVec 80) (x : U64) (op : BitVec 2)

@[simp] theorem joinFields_op : (joinFields len buf x op).extractLsb' 0 2 = op :=
  (extract_append_within _ _ 0 2 (by decide)).trans
    ((extract_append_within _ _ 0 2 (by decide)).trans (extract_append_low _ _))

@[simp] theorem joinFields_x : (joinFields len buf x op).extractLsb' 2 64 = x :=
  (extract_append_within _ _ 2 64 (by decide)).trans
    ((extract_append_within _ _ 2 64 (by decide)).trans
      ((extract_append_high _ _ 0 64).trans (extract_all x)))

@[simp] theorem joinFields_buf : (joinFields len buf x op).extractLsb' 66 80 = buf :=
  (extract_append_within _ _ 66 80 (by decide)).trans
    ((extract_append_high _ _ 0 80).trans (extract_all buf))

@[simp] theorem joinFields_len : (joinFields len buf x op).extractLsb' 146 4 = len :=
  (extract_append_high _ _ 0 4).trans (extract_all len)

/-- Each field of a joined word is shifted past the ones below it (R53). -/
theorem joinFields_toNat :
    (joinFields len buf x op).toNat =
      op.toNat ||| (x.toNat <<< 2) ||| (buf.toNat <<< 66) ||| (len.toNat <<< 146) := by
  have hword : (joinFields len buf x op).toNat =
      (len.toNat <<< 146) ||| ((buf.toNat <<< 66) ||| ((x.toNat <<< 2) ||| op.toNat)) := by
    refine (BitVec.toNat_append _ _).trans (congrArg _ ?_)
    refine (BitVec.toNat_append _ _).trans (congrArg _ ?_)
    exact BitVec.toNat_append _ _
  rw [hword, Nat.or_comm _ (len.toNat <<< 146), Nat.or_comm _ (buf.toNat <<< 66),
    Nat.or_comm _ (x.toNat <<< 2)]

/-- A joined word denotes the request of its op code and fields. -/
theorem decodeReq_joinFields :
    decodeReq (joinFields len buf x op) = Instr.ofOp op { x := x, buf := Window.ofPort buf, len := len } := by
  rw [decodeReq, reqOperands, joinFields_op, joinFields_x, joinFields_buf, joinFields_len]

end JoinFields

/-- The REQ word as a number (R53). -/
theorem encode_toNat (i : Instr) :
    (encode i).toNat =
      i.op.toNat ||| (i.fields.x.toNat <<< 2) ||| ((Window.toPort i.fields.buf).toNat <<< 66) |||
        (i.fields.len.toNat <<< 146) := by
  rw [encode_eq_joinFields, joinFields_toNat]

/-- Byte k of the window is at bits 66 + 8k and up of the REQ word (R43, R53). -/
theorem encode_windowByte (i : Instr) (k : Nat) (h : k < 10) :
    (encode i).extractLsb' (66 + 8 * k) 8 = i.fields.buf[k] := by
  rw [encode_eq_joinFields, ← extract_extract _ 66 80 (8 * k) 8 (by omega), joinFields_buf,
    ← Window.ofPort_getElem _ k h]
  simp only [Window.ofPort_toPort]

/-- Settles O4: the encoder and the ports both join their fields, and a joined word gives each field back. -/
theorem reqWordIsItsFieldsShifted : Obligations.ReqWordIsItsFieldsShifted := by
  unfold Obligations.ReqWordIsItsFieldsShifted
  refine ⟨fun i => ⟨encode_toNat i, ?_, ?_, encode_windowByte i, ?_⟩, fun p => ?_⟩
  · rw [encode_eq_joinFields, joinFields_op]
  · rw [encode_eq_joinFields, joinFields_x]
  · rw [encode_eq_joinFields, joinFields_len]
  · rw [p.word_eq_joinFields, decodeReq_joinFields, Machine.InPorts.offered]

/-- The op code of a word selects its row of the op map (R57, R58). -/
theorem decodeReq_of_op {w : BitVec 150} {op : BitVec 2} (h : w.extractLsb' 0 2 = op) :
    decodeReq w = Instr.ofOp op (reqOperands w) := by
  rw [decodeReq, h]

/-- Settles O6: each of the four op codes is looked up in the op map. -/
theorem opCodeSelectsTheOperation : Obligations.OpCodeSelectsTheOperation := by
  unfold Obligations.OpCodeSelectsTheOperation
  exact fun w => ⟨decodeReq_of_op, decodeReq_of_op, decodeReq_of_op, decodeReq_of_op⟩

/-! ### The RSP word -/

section RspWord

variable (value : U64) (count : Count) (status : BitVec 2)

@[simp] theorem rspWord_value : (rspWord value count status).extractLsb' 0 64 = value :=
  (extract_append_within _ _ 0 64 (by decide)).trans (extract_append_low _ _)

@[simp] theorem rspWord_count : (rspWord value count status).extractLsb' 64 32 = count :=
  (extract_append_within _ _ 64 32 (by decide)).trans
    ((extract_append_high _ _ 0 32).trans (extract_all count))

@[simp] theorem rspWord_status : (rspWord value count status).extractLsb' 96 2 = status :=
  (extract_append_high _ _ 0 2).trans (extract_all status)

end RspWord

/-- A status has the code that names it (R23). -/
theorem Machine.Status.code_eq_iff (st : Machine.Status) (c : BitVec 2) :
    st.code = c ↔ st = Machine.Status.ofCode c :=
  ⟨fun h => h ▸ (Machine.Status.ofCode_code st).symm, fun h => h ▸ Machine.Status.code_ofCode c⟩

/-- Settles O8: the ports show the registers the RSP word joins, and each status has its own code. -/
theorem rspWordFields : Obligations.RspWordFields := by
  unfold Obligations.RspWordFields
  refine ⟨fun s => ⟨rspWord_value .., rspWord_count .., rspWord_status .., rfl, rfl⟩, fun s => ?_⟩
  have hcode := s.resStatus.code_eq_iff
  exact ⟨hcode 0b00#2, hcode 0b01#2, hcode 0b10#2, hcode 0b11#2⟩

/-! ### The text forms -/

/-- A weighted sum over the positions of a list, from position m on, is one over any range of positions that holds the
list: those past its end weigh nothing. -/
theorem sum_zipIdx_weighted (weight : Nat → Nat) (l : List Nat) (m n : Nat) (h : l.length ≤ n) :
    ((l.zipIdx m).map fun b => b.1 * weight b.2).sum = ∑ k ∈ Finset.range n, l.getD k 0 * weight (m + k) := by
  induction l generalizing m n with
  | nil => simp
  | cons b l ih =>
    cases n with
    | zero => simp at h
    | succ n =>
      rw [Finset.sum_range_succ', List.zipIdx_cons, List.map_cons, List.sum_cons,
        ih (m + 1) n (Nat.le_of_succ_le_succ h), add_comm]
      simp [Nat.add_assoc, Nat.add_comm 1]

/-- Window byte k of a text is the listed byte at position k, or 0x00 (R67). -/
theorem Window.ofList_textBytes_toNat (bytes : List Nat) (hb : ∀ b ∈ bytes, b < 256) (k : Nat) (hk : k < 10) :
    (Window.ofList (textBytes bytes))[k].toNat = bytes.getD k 0 := by
  have hget : (Window.ofList (textBytes bytes))[k] = (textBytes bytes).getD k 0 := by
    interval_cases k <;> rfl
  rw [hget, textBytes]
  by_cases h : k < bytes.length
  · simp [h, hb _ (List.getElem_mem h)]
  · simp [h]

/-- The window of a text, as a port value, weighs the listed byte at position j by 2^(8j) (R68), for the ten positions
there are (R34). -/
theorem Window.toPort_ofList_textBytes (bytes : List Nat) (hb : ∀ b ∈ bytes, b < 256) :
    (Window.toPort (Window.ofList (textBytes bytes))).toNat =
      ((bytes.take 10).zipIdx.map fun b => b.1 * 2 ^ (8 * b.2)).sum := by
  rw [Window.toPort_toNat_eq_sum,
    sum_zipIdx_weighted (fun j => 2 ^ (8 * j)) (bytes.take 10) 0 10 (List.length_take_le 10 bytes),
    Finset.sum_range]
  refine Finset.sum_congr rfl fun k _ => ?_
  have htake : (bytes.take 10).getD k 0 = bytes.getD k 0 := by simp
  rw [Fin.getElem_fin, Window.ofList_textBytes_toNat bytes hb k k.isLt, Nat.zero_add, htake]

theorem bytesFit_iff (bytes : List Nat) : bytesFit bytes = true ↔ ∀ b ∈ bytes, b < 256 := by
  simp [bytesFit]

/-- The len form denotes a DECODE request of its bytes and its length. -/
theorem assemble_decodeLen (n : Nat) (bytes : List Nat) (hn : n < 16) (hl : bytes.length ≤ 10)
    (hb : ∀ b ∈ bytes, b < 256) :
    Source.assemble (.decodeLen n bytes) =
      some (.decode { x := 0, buf := Window.ofList (textBytes bytes), len := BitVec.ofNat 4 n }) := by
  simp [Source.assemble, Source.wellFormed, hn, hl, (bytesFit_iff bytes).mpr hb]

/-- The pseudo-form denotes a DECODE request of its bytes and their number. -/
theorem assemble_decodeList (bytes : List Nat) (hl : bytes.length ≤ 15) (hb : ∀ b ∈ bytes, b < 256) :
    Source.assemble (.decodeList bytes) =
      some (.decode
        { x := 0, buf := Window.ofList (textBytes bytes), len := BitVec.ofNat 4 bytes.length }) := by
  simp [Source.assemble, Source.wellFormed, hl, (bytesFit_iff bytes).mpr hb]

/-- A SIZE text denotes a SIZE request with no other field. -/
theorem assemble_size (x : Nat) (hx : x < 2 ^ 64) :
    Source.assemble (.size x) = some (.size { x := BitVec.ofNat 64 x, buf := Window.ofPort 0, len := 0 }) := by
  have hwf : (Source.size x).wellFormed = true := decide_eq_true hx
  exact if_pos hwf

/-- The REQ word of a DECODE request that lists bytes and gives a length (R68): the bytes past the tenth have no
position in it. -/
theorem encode_decode_text (n : Nat) (bytes : List Nat) (hn : n < 16) (hb : ∀ b ∈ bytes, b < 256) :
    (encode (.decode { x := 0, buf := Window.ofList (textBytes bytes), len := BitVec.ofNat 4 n })).toNat =
      0 ||| (((bytes.take 10).zipIdx.map fun b => b.1 * 2 ^ (8 * b.2)).sum <<< 66) ||| (n <<< 146) := by
  rw [encode_toNat, ← Window.toPort_ofList_textBytes bytes hb]
  simp [Instr.op, Instr.fields, Nat.mod_eq_of_lt hn]

/-- The REQ word of a SIZE request with no other field (R68). -/
theorem encode_size_text (x : Nat) (hx : x < 2 ^ 64) :
    (encode (.size { x := BitVec.ofNat 64 x, buf := Window.ofPort 0, len := 0 })).toNat = 1 ||| (x <<< 2) := by
  have hfields : (BitVec.ofNat 64 x).toNat = x := Nat.mod_eq_of_lt hx
  rw [encode_toNat]
  simp only [Instr.op, Instr.fields, Window.toPort_ofPort, hfields]
  simp

/-- Settles O9: each text denotes its request, and the request's REQ word is its fields shifted; the two reserved texts
and the example are fixed words. -/
theorem textFormsDenoteReqWords : Obligations.TextFormsDenoteReqWords := by
  unfold Obligations.TextFormsDenoteReqWords
  refine ⟨fun n bytes hn hl hb => ?_, fun bytes hl hb => ?_, fun x hx => ?_, ?_, ?_, ?_⟩
  · have hword := encode_decode_text n bytes hn hb
    rw [List.take_of_length_le hl] at hword
    exact ⟨_, assemble_decodeLen n bytes hn hl hb, hword⟩
  · have hword := encode_decode_text bytes.length bytes (by omega) hb
    rw [List.take_of_length_le hl] at hword
    exact ⟨_, assemble_decodeList bytes (by omega) hb, hword⟩
  · exact ⟨_, assemble_size x hx, encode_size_text x hx⟩
  · exact ⟨_, rfl, by decide⟩
  · exact ⟨_, rfl, by decide⟩
  · exact ⟨_, rfl, by decide⟩

end Sys2Proof

namespace Sys2Proof.Machine

/-! ### What a DECODE edge reads -/

section SameReads

variable {f g : Operands} (ha : avail f = avail g) (hm : memRead f = memRead g)
include ha

theorem shortBuffer_congr : shortBuffer f = shortBuffer g := by
  funext i
  rw [shortBuffer, shortBuffer, ha]

include hm

/-- DECODE answers by its valid length and the window bytes alone (R42, R92). -/
theorem decodeVarint_congr (bias : OvfBias) : decodeVarint bias f = decodeVarint bias g :=
  decodeLoop_congr_upto_stop bias f g ha (fun j _ _ => congrFun hm j) 10 0 0 (Nat.zero_le _)

/-- The priority chain looks at the valid length and the window bytes alone (R102). -/
theorem stopIndex_congr : stopIndex f = stopIndex g := by
  have hstops : stopsAt f = stopsAt g := by
    funext i
    rw [stopsAt, stopsAt, shortBuffer_congr ha, hm]
  rw [stopIndex, stopIndex, hstops]

theorem unrolledResponse_congr (bias : OvfBias) : unrolledResponse bias f = unrolledResponse bias g := by
  simp only [unrolledResponse, orGroups, stopIndex_congr ha hm, shortBuffer_congr ha, hm]

theorem decodeIterate_congr (s : State) : s.decodeIterate f = s.decodeIterate g := by
  rw [State.decodeIterate, State.decodeIterate,
    examine_reads_valid_bytes s.params.ovfBias f g _ _ ha fun _ => congrFun hm _]

/-- Operands with the same valid length and the same window bytes give the same DECODE edge, in each strategy. -/
theorem execDecode_congr (s : State) : execDecode f s = execDecode g s := by
  unfold execDecode
  rw [unrolledResponse_congr ha hm, decodeIterate_congr ha hm, decodeVarint_congr ha hm]

end SameReads

theorem memRead_congr {f g : Operands} (h : f.buf = g.buf) : memRead f = memRead g := by
  funext i
  rw [memRead, memRead, h]

/-- Every length from 10 on presents the whole window (R60). -/
theorem avail_of_ten_le (f : Operands) (h : 10 ≤ f.len.toNat) : avail f = 10 := Nat.min_eq_right h

/-- Settles O10: a length counts through `avail` alone, and `avail` is 10 for each length from 10 to 15. -/
theorem lengthsFromTenMeanTen : Obligations.LengthsFromTenMeanTen := by
  unfold Obligations.LengthsFromTenMeanTen
  refine ⟨fun f => rfl, availBits_toNat, fun x b l l' s hl hl' => ?_⟩
  have ha : avail { x := x, buf := b, len := l } = avail { x := x, buf := b, len := l' } :=
    (avail_of_ten_le { x := x, buf := b, len := l } hl).trans
      (avail_of_ten_le { x := x, buf := b, len := l' } hl').symm
  exact execDecode_congr ha (memRead_congr rfl) s

end Sys2Proof.Machine
end

section
/-! SUPPORT. What `size` is, said once as `size x ≤ k` (R76), its ten bounds (R77), the FLAT chain of comparators (R79) and
the shift that tests a class (R80); with the obligations on the contract of SIZE (spec/40_size_calculator.md). -/

namespace Sys2Proof.Machine

/-! ### The least class that holds a value -/

theorem sizeFrom_succ (x : U64) (n k : Nat) :
    sizeFrom x (n + 1) k = if x.toNat ≤ 2 ^ (7 * k) - 1 then k else sizeFrom x n (k + 1) := rfl

/-- The loop answers no class before the one it starts from. -/
theorem le_sizeFrom (x : U64) (n k : Nat) (hk : k + n = 10) : k ≤ sizeFrom x n k := by
  induction n generalizing k with
  | zero => exact hk.le
  | succ n ih =>
    rw [sizeFrom_succ]
    split
    · exact le_rfl
    · exact Nat.le_of_succ_le (ih (k + 1) (by omega))

theorem sizeFrom_le_ten (x : U64) (n k : Nat) (hk : k + n = 10) : sizeFrom x n k ≤ 10 := by
  induction n generalizing k with
  | zero => exact le_rfl
  | succ n ih =>
    rw [sizeFrom_succ]
    split
    · omega
    · exact ih (k + 1) (by omega)

/-- The bound of a class grows with the class. -/
theorem classBound_mono {j k : Nat} (h : j ≤ k) : 2 ^ (7 * j) - 1 ≤ 2 ^ (7 * k) - 1 :=
  Nat.sub_le_sub_right (Nat.pow_le_pow_right (by decide) (by omega)) 1

/-- Class 10 holds every u64. -/
theorem toNat_le_classBound_ten (x : U64) : x.toNat ≤ 2 ^ (7 * 10) - 1 := by
  have := x.isLt
  omega

/-- From class k on, the loop answers at most m exactly when class m holds x. -/
theorem sizeFrom_le_iff (x : U64) (n k m : Nat) (hk : k + n = 10) (hm : k ≤ m) :
    sizeFrom x n k ≤ m ↔ x.toNat ≤ 2 ^ (7 * m) - 1 := by
  induction n generalizing k with
  | zero =>
    obtain rfl : k = 10 := hk
    exact iff_of_true hm ((toNat_le_classBound_ten x).trans (classBound_mono hm))
  | succ n ih =>
    rw [sizeFrom_succ]
    split
    case isTrue h => exact iff_of_true hm (h.trans (classBound_mono hm))
    case isFalse h =>
      obtain rfl | hlt := hm.eq_or_lt
      · exact iff_of_false (Nat.not_le.mpr (le_sizeFrom x n (k + 1) (by omega))) h
      · exact ih (k + 1) (by omega) hlt

theorem one_le_size (x : U64) : 1 ≤ size x := le_sizeFrom x 9 1 rfl

theorem size_le_ten (x : U64) : size x ≤ 10 := sizeFrom_le_ten x 9 1 rfl

/-- R76: the size is at most k exactly when class k holds x. -/
theorem size_le_iff (x : U64) {k : Nat} (hk : 1 ≤ k) : size x ≤ k ↔ x.toNat ≤ 2 ^ (7 * k) - 1 :=
  sizeFrom_le_iff x 9 1 k rfl hk

/-- The class of a value's size holds the value. -/
theorem toNat_le_classBound_size (x : U64) : x.toNat ≤ 2 ^ (7 * size x) - 1 :=
  (size_le_iff x (one_le_size x)).mp le_rfl

theorem size_eq_iff_least (x : U64) {k : Nat} (hk : 1 ≤ k) :
    size x = k ↔ x.toNat ≤ 2 ^ (7 * k) - 1 ∧ ∀ j, 1 ≤ j → j < k → ¬x.toNat ≤ 2 ^ (7 * j) - 1 := by
  constructor
  · rintro rfl
    exact ⟨toNat_le_classBound_size x, fun j hj hlt hle => hlt.not_ge ((size_le_iff x hj).mpr hle)⟩
  · rintro ⟨hle, hleast⟩
    refine le_antisymm ((size_le_iff x hk).mpr hle) (Nat.not_lt.mp fun hlt => ?_)
    exact hleast (size x) (one_le_size x) hlt (toNat_le_classBound_size x)

theorem size_eq_ten_iff (x : U64) :
    size x = 10 ↔ ∀ k, 1 ≤ k → k ≤ 9 → ¬x.toNat ≤ 2 ^ (7 * k) - 1 := by
  rw [size_eq_iff_least x (by decide), and_iff_right (toNat_le_classBound_ten x)]
  exact forall₂_congr fun k _ => imp_congr_left Nat.lt_succ_iff

/-- Settles O12: the classes are those of the loop of R76, and `finish` writes the response field by field; the corner
values are fixed words. -/
theorem sizeIsTheLeastClass : Obligations.SizeIsTheLeastClass := by
  unfold Obligations.SizeIsTheLeastClass
  refine ⟨fun x => ⟨fun k hk _ => size_eq_iff_least x hk, size_eq_ten_iff x, one_le_size x, size_le_ten x⟩,
    fun bias f s => ⟨rfl, rfl, rfl, rfl⟩, ?_⟩
  decide

/-! ### The ten bounds -/

/-- On a u64 the bound `T_k` is the bound of class k: capping it at 2^64 - 1 excludes no value. -/
theorem toNat_le_threshold_iff (x : U64) (k : Nat) : x.toNat ≤ threshold k ↔ x.toNat ≤ 2 ^ (7 * k) - 1 := by
  have := x.isLt
  unfold threshold
  omega

theorem size_le_iff_threshold (x : U64) {k : Nat} (hk : 1 ≤ k) : size x ≤ k ↔ x.toNat ≤ threshold k :=
  (size_le_iff x hk).trans (toNat_le_threshold_iff x k).symm

/-- R77: class k is the range `(T_(k-1), T_k]`, and class 1 has no lower end. -/
theorem size_eq_iff_threshold (x : U64) {k : Nat} (hk : 1 ≤ k) :
    size x = k ↔ (k = 1 ∨ threshold (k - 1) < x.toNat) ∧ x.toNat ≤ threshold k := by
  have hone := one_le_size x
  rw [← size_le_iff_threshold x hk]
  obtain rfl | hlt := hk.eq_or_lt
  · omega
  · rw [← Nat.not_le, ← size_le_iff_threshold x (Nat.le_sub_one_of_lt hlt)]
    omega

/-- Settles O13: the bounds are fixed numbers, and the classes lie between them. -/
theorem sizeClassesAndTheirBounds : Obligations.SizeClassesAndTheirBounds := by
  unfold Obligations.SizeClassesAndTheirBounds
  exact ⟨rfl, rfl, rfl, rfl, rfl, rfl, rfl, rfl, rfl, rfl, fun x k hk _ => size_eq_iff_threshold x hk⟩

theorem threshold_lt (k : Nat) : threshold k < 2 ^ 64 := by
  unfold threshold
  omega

/-- The bounds of the ten classes are strictly increasing, the last one too although it is capped. -/
theorem threshold_lt_succ {k : Nat} (hk : k ≤ 9) : threshold k < threshold (k + 1) := by
  have hpos : 0 < 2 ^ (7 * k) := Nat.two_pow_pos _
  have hcap : 2 ^ (7 * k) ≤ 2 ^ 63 := Nat.pow_le_pow_right (by decide) (by omega)
  have hsucc : 2 ^ (7 * (k + 1)) = 2 ^ (7 * k) * 128 := pow_add 2 (7 * k) 7
  unfold threshold
  omega

/-- The size of a number is k when it lies in the range of class k, up to `T_k`. -/
theorem size_ofNat_eq {n k : Nat} (hk : 1 ≤ k) (hlow : k = 1 ∨ threshold (k - 1) < n) (hn : n ≤ threshold k) :
    size (BitVec.ofNat 64 n) = k := by
  have hfits : (BitVec.ofNat 64 n).toNat = n := Nat.mod_eq_of_lt (hn.trans_lt (threshold_lt k))
  rw [size_eq_iff_threshold _ hk, hfits]
  exact ⟨hlow, hn⟩

/-- Settles O14: `T_k` is the last number of class k, and the next number is the first of class k + 1. -/
theorem sizeAtEveryBound : Obligations.SizeAtEveryBound := by
  unfold Obligations.SizeAtEveryBound
  refine ⟨fun k hk h9 => ⟨size_ofNat_eq hk ?_ le_rfl, ?_⟩, by decide, size_ofNat_eq (by decide) ?_ le_rfl⟩
  · obtain rfl | hlt := hk.eq_or_lt
    · exact .inl rfl
    · have := threshold_lt_succ (k := k - 1) (by omega)
      rw [Nat.sub_add_cancel hk] at this
      exact .inr this
  · exact size_ofNat_eq (Nat.le_add_left 1 k) (.inr (Nat.lt_succ_self _)) (threshold_lt_succ h9)
  · exact .inr (by decide)

/-! ### The two reference datapaths compute it -/

/-- The loop of R76, tried from class k up, is a chain of comparators on the bounds, each overriding those above it. -/
theorem sizeFrom_eq_foldr (x : U64) (n k : Nat) :
    sizeFrom x n k = (List.range' k n).foldr (fun j s => if x.toNat ≤ threshold j then j else s) 10 := by
  induction n generalizing k with
  | zero => rfl
  | succ n ih => simp only [sizeFrom_succ, List.range'_succ, List.foldr_cons, ih, toNat_le_threshold_iff]

/-- The FLAT chain walks the same comparators from the top down (R79). -/
theorem flatSize_eq_size (x : U64) : flatSize x = size x := by
  rw [size, sizeFrom_eq_foldr, ← List.foldl_reverse]
  rfl

/-- R80's test: after k shifts nothing is left exactly when class k holds x. -/
theorem shiftRight_eq_zero_iff (x : U64) {k : Nat} (hk : 1 ≤ k) : x >>> (7 * k) = 0 ↔ size x ≤ k := by
  have hpos : 0 < 2 ^ (7 * k) := Nat.two_pow_pos _
  rw [size_le_iff x hk, BitVec.toNat_eq, BitVec.toNat_ushiftRight, Nat.shiftRight_eq_div_pow,
    Nat.le_sub_one_iff_lt hpos]
  exact Nat.div_eq_zero_iff_lt hpos

end Sys2Proof.Machine
end

section
/-! SUPPORT. Edges without a reset (R8, R137), and the run of a SIZE request from its acceptance to its response in both
reference strategies (R79, R80); with the obligation that the two answer the same (R78). -/

namespace Sys2Proof.Machine

/-! ### Edges without a reset -/

/-- Every edge answers a next state, and what it adds to the edge's own work is the tick of an unchanged script. -/
theorem step_eq_tick (s : State) : ∃ u : State, step s = .next u.tick ∧ u.script = s.script := by
  obtain ⟨-, h⟩ | ⟨-, -, h⟩ | ⟨-, -, -, h⟩ | ⟨-, -, -, h⟩ := step_cases s
  · exact ⟨_, h, rfl⟩
  · obtain ⟨u, hu, hedge⟩ := exec_busyEdge s.latched s
    refine ⟨u, by rw [h, hu, tickOutcome_next], ?_⟩
    obtain ⟨r, rfl⟩ | ⟨acc, idx, szRem, szCnt, rfl⟩ := hedge
    · rfl
    · rfl
  · exact ⟨_, h, rfl⟩
  · exact ⟨_, h, rfl⟩

/-- A host that does not reset the block for n + 1 edges does not at the first. -/
theorem State.NoResetFor.head {s : State} {n : Nat} (h : s.NoResetFor (n + 1)) : s.ports.rst = false :=
  h s.ports (by simp [State.levels])

/-- A host that does not reset the block for n + 1 edges does not for n edges after the first, whatever that edge is. -/
theorem State.NoResetFor.step {s t : State} {n : Nat} (h : s.NoResetFor (n + 1)) (ht : step s = .next t) :
    t.NoResetFor n := by
  obtain ⟨u, hu, hscript⟩ := step_eq_tick s
  obtain rfl : u.tick = t := by simpa using hu.symm.trans ht
  intro p hp
  obtain rfl | hp := levels_tick_mem n p hscript hp
  · rfl
  · exact h p (mem_levels_of_mem_script n p hp)

/-! ### The busy edge of a SIZE request -/

/-- The latches hold a SIZE request when `op_r` says so (R57). -/
theorem State.latched_of_size {s : State} (h : s.opR = 0b01#2) : s.latched = .size s.latchedOperands := by
  rw [State.latched, h]
  rfl

theorem execSize_of_flat {f : Operands} {s : State} (h : s.params.sizeStrategy = .flat) :
    execSize f s = .next (s.finish (sizeResponse (size f.x))) := by
  rw [execSize, h, flatSize_eq_size]

theorem execSize_of_iterative {f : Operands} {s : State} (h : s.params.sizeStrategy = .iterative) :
    execSize f s = .next s.sizeIterate := by
  rw [execSize, h]

/-- What `finish` writes is posted after the edge (R30). -/
theorem State.finish_tick_posts (s : State) (r : Response) : (s.finish r).tick.Posts r := ⟨rfl, rfl, rfl⟩

/-- A FLAT block posts the size at its busy edge (R79). -/
theorem step_of_flat_size {s : State} (hr : s.ports.rst = false) (hb : s.busy = true) (hop : s.opR = 0b01#2)
    (hstr : s.params.sizeStrategy = .flat) :
    step s = .next (s.finish (sizeResponse (size s.xR))).tick := by
  rw [step_of_busy hr hb, State.latched_of_size hop, exec, execSize_of_flat hstr, tickOutcome_next]
  rfl

/-- The ITERATIVE counter is at work on a SIZE request for x and has shifted c times without reaching zero (R80). -/
structure State.SizingAt (s : State) (x : U64) (c : Nat) : Prop where
  in_flight : s.InFlight
  op        : s.opR = 0b01#2
  strategy  : s.params.sizeStrategy = .iterative
  remainder : s.szRem = x >>> (7 * c)
  count     : s.szCnt.toNat = c

/-- Acceptance starts the counter: no shift is done (R28, R80). -/
theorem State.accept_sizingAt {s : State} {p : InPorts} (hop : p.reqOp = 0b01#2)
    (hstr : s.params.sizeStrategy = .iterative) : (s.accept p).SizingAt p.reqX 0 :=
  ⟨⟨rfl, rfl⟩, hop, hstr, (BitVec.ushiftRight_zero _).symm, rfl⟩

namespace State.SizingAt

variable {s : State} {x : U64} {c : Nat}

/-- The tick moves the host's levels and no register of the counter. -/
theorem tick (h : s.SizingAt x c) : s.tick.SizingAt x c :=
  ⟨h.in_flight, h.op, h.strategy, h.remainder, h.count⟩

theorem step_eq (h : s.SizingAt x c) (hr : s.ports.rst = false) : step s = .next s.sizeIterate.tick := by
  rw [step_of_busy hr h.in_flight.1, State.latched_of_size h.op, exec, execSize_of_iterative h.strategy,
    tickOutcome_next]

/-- What the edge tests is x shifted once more. -/
theorem shifted (h : s.SizingAt x c) : s.szRem >>> 7 = x >>> (7 * (c + 1)) := by
  rw [h.remainder, ← BitVec.shiftRight_add]
  rfl

/-- What the edge tests is zero exactly when its shift is the last that x needs. -/
theorem shifted_eq_zero_iff (h : s.SizingAt x c) : s.szRem >>> 7 = 0 ↔ size x ≤ c + 1 := by
  rw [h.shifted, shiftRight_eq_zero_iff x (Nat.le_add_left 1 c)]

/-- The edge of the last shift posts the size. -/
theorem sizeIterate_last (h : s.SizingAt x c) (hc : size x = c + 1) :
    s.sizeIterate = s.finish (sizeResponse (size x)) := by
  obtain ⟨-, he⟩ | ⟨hne, -⟩ := s.sizeIterate_cases
  · rw [he, h.count, hc]
  · exact absurd (h.shifted_eq_zero_iff.mpr hc.le) hne

/-- An earlier edge counts its shift and goes on; the count does not wrap, since the size is at most 10. -/
theorem sizeIterate_more (h : s.SizingAt x c) (hc : c + 1 < size x) : s.sizeIterate.SizingAt x (c + 1) := by
  obtain ⟨hz, -⟩ | ⟨-, he⟩ := s.sizeIterate_cases
  · exact absurd (h.shifted_eq_zero_iff.mp hz) (Nat.not_le.mpr hc)
  · have hcnt : (s.szCnt + 1).toNat = c + 1 := by
      have hcount := h.count
      have hten := size_le_ten x
      bv_omega
    rw [he]
    exact ⟨h.in_flight, h.op, h.strategy, h.shifted, hcnt⟩

/-- The run of the counter with n more shifts before the last one: it is at work for n edges, one shift each, and posts
the size at the edge after them. -/
theorem run (n : Nat) (h : s.SizingAt x c) (hn : size x = c + n + 1) (hr : s.NoResetFor (n + 1)) :
    (∀ k ≤ n, ∃ u, edges k s = .next u ∧ u.SizingAt x (c + k)) ∧
      ∃ t, edges (n + 1) s = .next t ∧ t.Posts (sizeResponse (size x)) := by
  induction n generalizing s c with
  | zero =>
    have hstep := h.step_eq hr.head
    rw [h.sizeIterate_last hn] at hstep
    refine ⟨fun k hk => ?_, _, edges_succ 0 hstep, s.finish_tick_posts _⟩
    obtain rfl := Nat.le_zero.mp hk
    exact ⟨s, rfl, h⟩
  | succ n ih =>
    have hstep := h.step_eq hr.head
    have hnext := (h.sizeIterate_more (by omega)).tick
    obtain ⟨hbusy, t, ht, hposts⟩ := ih hnext (by omega) (hr.step hstep)
    refine ⟨fun k hk => ?_, t, (edges_succ (n + 1) hstep).trans ht, hposts⟩
    cases k with
    | zero => exact ⟨s, rfl, h⟩
    | succ k =>
      obtain ⟨u, hu, hat⟩ := hbusy k (Nat.le_of_succ_le_succ hk)
      exact ⟨u, (edges_succ k hstep).trans hu, by rwa [Nat.add_right_comm, Nat.add_assoc] at hat⟩

end State.SizingAt

/-! ### The obligation -/

/-- Settles O19: FLAT finishes at the first busy edge; ITERATIVE starts at acceptance and runs for as many edges as the
size says. -/
theorem sizeStrategiesPostTheSameResponse : Obligations.SizeStrategiesPostTheSameResponse := by
  unfold Obligations.SizeStrategiesPostTheSameResponse
  intro s ⟨hrst, hidle, hvalid⟩ hop hr
  have haccept := step_of_offer hrst hidle hvalid
  obtain ⟨n, hn⟩ := Nat.exists_eq_add_of_le' (one_le_size s.ports.reqX)
  have hr' : (s.accept s.ports).tick.NoResetFor (n + 1) := hn ▸ hr.step haccept
  refine ⟨fun hflat => ?_, fun hiter => ?_⟩
  · have hfinish := step_of_flat_size hr'.head rfl hop hflat
    exact ⟨_, (edges_succ 1 haccept).trans (edges_succ 0 hfinish), State.finish_tick_posts _ _⟩
  · have hstart := (State.accept_sizingAt hop hiter).tick
    obtain ⟨hbusy, t, ht, hposts⟩ := hstart.run n (by omega) hr'
    refine ⟨fun k h1 hk => ?_, t, (edges_succ _ haccept).trans (hn ▸ ht), hposts⟩
    obtain ⟨j, rfl⟩ := Nat.exists_eq_add_of_le' h1
    obtain ⟨u, hu, hat⟩ := hbusy j (by omega)
    exact ⟨u, (edges_succ j haccept).trans hu, hat.in_flight⟩

end Sys2Proof.Machine
end

section
/-! SUPPORT. The byte shifter and the overflow checker as arithmetic (R95, R96), the OR of the shifted groups as their sum
and as the value of the bytes (R63, R97), and the three ways a window ends its DECODE (R92); with the obligations on the
varint decoder (spec/41_varint_decoder.md) that follow from them. -/

namespace Sys2Proof.Machine

/-! ### The byte shifter -/

/-- The shifter multiplies the seven-bit group by 2^(7i), in 64 bits (R95). -/
theorem sh_toNat (b : Byte) (i : Nat) : (sh b i).toNat = b.toNat % 128 * 2 ^ (7 * i) % 2 ^ 64 := by
  simp [sh, grp, Nat.shiftLeft_eq]

/-- A group below index 9 has room for all its bits. -/
theorem sh_toNat_of_le_eight (b : Byte) {i : Nat} (hi : i ≤ 8) : (sh b i).toNat = b.toNat % 128 * 2 ^ (7 * i) := by
  rw [sh_toNat]
  refine Nat.mod_eq_of_lt ?_
  calc b.toNat % 128 * 2 ^ (7 * i)
      ≤ 127 * 2 ^ 56 := Nat.mul_le_mul (by omega) (Nat.pow_le_pow_right (by decide) (by omega))
    _ < 2 ^ 64 := by decide

/-- Of the group at index 9 only bit 0 has room. -/
theorem sh_nine_toNat (b : Byte) : (sh b 9).toNat = b.toNat % 2 * 2 ^ 63 := by
  rw [sh_toNat]
  omega

/-! ### The overflow checker -/

/-- The overflow checker passes every byte but a tenth one above 0x01 (R96). -/
theorem overflowAt_eq_false_iff (i : Nat) (b : Byte) : overflowAt i b = false ↔ (i = 9 → b.toNat ≤ 1) := by
  simp [overflowAt]

theorem overflowAt_eq_true_iff (i : Nat) (b : Byte) : overflowAt i b = true ↔ i = 9 ∧ 1 < b.toNat := by
  simp [overflowAt]

theorem overflowAt_of_lt {i : Nat} (hi : i < 9) (b : Byte) : overflowAt i b = false :=
  (overflowAt_eq_false_iff i b).mpr fun h => absurd h (Nat.ne_of_lt hi)

/-- The two forms of R96's test: a byte is above 0x01 when bit 7 or one of bits 6 to 1 is set. -/
theorem one_lt_toNat_iff (b : Byte) : 1 < b.toNat ↔ b.getLsbD 7 = true ∨ b.extractLsb' 1 6 ≠ 0 := by
  have hbit7 : b.getLsbD 7 = true ↔ 128 ≤ b.toNat := by
    rw [BitVec.getLsbD, Nat.testBit_eq_decide_div_mod_eq, decide_eq_true_iff]
    omega
  have hbits : b.extractLsb' 1 6 = 0 ↔ b.toNat / 2 % 64 = 0 := by
    rw [← BitVec.toNat_inj, BitVec.extractLsb'_toNat, Nat.shiftRight_eq_div_pow]
    rfl
  rw [hbit7, Ne, hbits]
  omega

/-- The checker at index 9 ends the decode (R96, R101). -/
theorem examine_nine_overflows (bias : OvfBias) (f : Operands) (a : U64) (hv : shortBuffer f 9 = false)
    (hb : 1 < (memRead f 9).toNat) : examine bias f 9 a = .stop (overflowResponse bias) := by
  simp [examine, hv, (overflowAt_eq_true_iff 9 _).mpr ⟨rfl, hb⟩]

/-- A byte that passes both checks of R96 and R99 goes into the accumulator. -/
theorem examine_of_passes (bias : OvfBias) (f : Operands) (i : Nat) (a : U64) (hv : shortBuffer f i = false)
    (ho : overflowAt i (memRead f i) = false) :
    examine bias f i a =
      if cont (memRead f i) then .more (a ||| sh (memRead f i) i)
      else .stop (okResponse (a ||| sh (memRead f i) i) (i + 1)) := by
  simp [examine, hv, ho]

/-! ### The accumulated groups -/

/-- A value below 2^(7i) has no bit in common with a group shifted to index i. -/
theorem and_sh_eq_zero {a : U64} {i : Nat} (b : Byte) (ha : a.toNat < 2 ^ (7 * i)) : a &&& sh b i = 0#64 := by
  ext k hk
  by_cases h : k < 7 * i
  · simp [sh, h]
  · have hpow : 2 ^ (7 * i) ≤ 2 ^ k := Nat.pow_le_pow_right (by decide) (Nat.le_of_not_lt h)
    have hbit : a[k] = false := by
      rw [BitVec.getElem_eq_testBit_toNat]
      exact Nat.testBit_lt_two_pow (Nat.lt_of_lt_of_le ha hpow)
    simp [hbit]

/-- So taking in the group at index i adds it (R97). -/
theorem or_sh_toNat {a : U64} {i : Nat} (b : Byte) (ha : a.toNat < 2 ^ (7 * i)) :
    (a ||| sh b i).toNat = a.toNat + (sh b i).toNat := by
  have hand := and_sh_eq_zero b ha
  rw [← BitVec.add_eq_or_of_and_eq_zero _ _ hand, BitVec.toNat_add_of_and_eq_zero hand]

/-- The first n groups, n up to 9, fill at most the low 7n bits (R97). -/
theorem orGroups_lt (f : Operands) (n : Nat) (hn : n ≤ 9) : (orGroups f n).toNat < 2 ^ (7 * n) := by
  induction n with
  | zero => simp
  | succ n ih =>
    have hlow := ih (by omega)
    rw [orGroups_succ, or_sh_toNat _ hlow, sh_toNat_of_le_eight _ (by omega)]
    have hgroup : (memRead f n).toNat % 128 * 2 ^ (7 * n) ≤ 127 * 2 ^ (7 * n) :=
      Nat.mul_le_mul_right _ (by omega)
    have hpow : 2 ^ (7 * (n + 1)) = 128 * 2 ^ (7 * n) := by rw [Nat.mul_succ, Nat.pow_add, Nat.mul_comm]
    omega

/-- The value of a list of bytes that is cut in two (R63). -/
theorem valueFrom_append (j : Nat) (l m : List Byte) :
    valueFrom j (l ++ m) = valueFrom j l ||| valueFrom (j + l.length) m := by
  induction l generalizing j with
  | nil => simp [valueFrom]
  | cons b l ih =>
    have hlen : j + 1 + l.length = j + (b :: l).length := by simp only [List.length_cons]; omega
    rw [List.cons_append, valueFrom, valueFrom, ih, hlen, BitVec.or_assoc]

/-- The OR of the groups of bytes 0 to n - 1 is the value of those bytes (R63). -/
theorem orGroups_eq_varintValue (f : Operands) (n : Nat) (hn : n ≤ 10) :
    orGroups f n = varintValue (f.buf.toList.take n) := by
  induction n with
  | zero => rfl
  | succ n ih =>
    have hlen : n < f.buf.toList.length := by simp only [Vector.length_toList]; omega
    have hbyte : f.buf.toList[n] = memRead f n := by
      have hn' : n < 10 := hn
      simp [memRead, hn']
    have hpos : (f.buf.toList.take n).length = n := List.length_take_of_le (Nat.le_of_lt hlen)
    rw [orGroups_succ, ih (by omega), List.take_succ_eq_append_getElem hlen, varintValue, varintValue,
      valueFrom_append, hpos, hbyte, Nat.zero_add]
    simp [valueFrom]

/-! ### The three ways a window ends its DECODE -/

/-- Byte n - 1 terminates: it is valid, no earlier byte does, and a tenth byte is at most 0x01. -/
def TerminatesAt (f : Operands) (n : Nat) : Prop :=
  1 ≤ n ∧ n ≤ avail f ∧ (∀ j, j + 1 < n → cont (memRead f j) = true) ∧
    cont (memRead f (n - 1)) = false ∧ (n = 10 → (memRead f 9).toNat ≤ 1)

/-- At most nine bytes are valid, and all continue. -/
def RunsShort (f : Operands) : Prop :=
  avail f ≤ 9 ∧ ∀ j, j < avail f → cont (memRead f j) = true

/-- Ten bytes are valid, nine continue, and the tenth is above 0x01. -/
def Overflows (f : Operands) : Prop :=
  avail f = 10 ∧ (∀ j, j < 9 → cont (memRead f j) = true) ∧ 1 < (memRead f 9).toNat

/-- Every window ends in one of the three ways: which one, the check that fires at the stop says (R100). -/
theorem terminates_or_runsShort_or_overflows (f : Operands) :
    (∃ n, TerminatesAt f n) ∨ RunsShort f ∨ Overflows f := by
  obtain ⟨h9, hstop, hmin⟩ := stopIndex_spec f
  have hcont : ∀ j < stopIndex f, cont (memRead f j) = true := fun j hj =>
    ((not_stopsAt_iff f j).mp (hmin j hj)).2.2
  by_cases hv : avail f ≤ stopIndex f
  · exact .inr (.inl ⟨hv.trans h9, fun j hj => hcont j (hj.trans_le hv)⟩)
  have hle := avail_le f
  cases ho : overflowAt (stopIndex f) (memRead f (stopIndex f)) with
  | true =>
    obtain ⟨ht, hb⟩ := (overflowAt_eq_true_iff _ _).mp ho
    rw [ht] at hv hb hcont
    exact .inr (.inr ⟨by omega, hcont, hb⟩)
  | false =>
    have hterm : cont (memRead f (stopIndex f)) = false := by
      simpa [stopsAt, shortBuffer, hv, ho] using hstop
    refine .inl ⟨stopIndex f + 1, by omega, by omega, fun j hj => hcont j (by omega), hterm, fun h => ?_⟩
    have ht : stopIndex f = 9 := by omega
    rw [ht] at ho
    exact (overflowAt_eq_false_iff 9 _).mp ho rfl

/-- A valid byte before the tenth that continues does not end the decode. -/
theorem not_stopsAt_of_cont {f : Operands} {j : Nat} (h9 : j < 9) (hv : j < avail f)
    (hc : cont (memRead f j) = true) : stopsAt f j = false :=
  (not_stopsAt_iff f j).mpr ⟨hv, overflowAt_of_lt h9 _, hc⟩

/-- The response of the first index whose examination stops is the response of the decode. -/
theorem decodeVarint_of_examine_stop {bias : OvfBias} {f : Operands} {i : Nat} {r : Response}
    (hlt : ∀ j < i, stopsAt f j = false) (hr : examine bias f i (orGroups f i) = .stop r) :
    decodeVarint bias f = r := by
  have hstop : stopsAt f i = true := by
    rw [examine_eq] at hr
    by_contra h
    simp [h] at hr
  have ht : stopIndex f = i := stopIndex_unique f i hstop hlt
  obtain ⟨h9, -, -⟩ := stopIndex_spec f
  have hsteps : 10 - i = (9 - i) + 1 := by omega
  rw [← decodeLoop_from bias f i ht.ge, hsteps, decodeLoop, hr]

theorem decodeVarint_of_terminatesAt (bias : OvfBias) {f : Operands} {n : Nat} (h : TerminatesAt f n) :
    decodeVarint bias f = okResponse (varintValue (f.buf.toList.take n)) n := by
  obtain ⟨h1, hv, hcont, hterm, hten⟩ := h
  obtain ⟨t, rfl⟩ := Nat.exists_eq_add_of_le' h1
  have hle := avail_le f
  have hvalid : shortBuffer f t = false := decide_eq_false (by omega)
  have hpass : overflowAt t (memRead f t) = false :=
    (overflowAt_eq_false_iff _ _).mpr fun ht => by subst ht; exact hten rfl
  rw [Nat.add_sub_cancel] at hterm
  refine decodeVarint_of_examine_stop (i := t)
    (fun j hj => not_stopsAt_of_cont (by omega) (by omega) (hcont j (by omega))) ?_
  rw [examine_of_passes _ _ _ _ hvalid hpass, hterm, ← orGroups_succ, orGroups_eq_varintValue f _ (by omega)]
  rfl

theorem decodeVarint_of_runsShort (bias : OvfBias) {f : Operands} (h : RunsShort f) :
    decodeVarint bias f = shortResponse := by
  obtain ⟨h9, hcont⟩ := h
  refine decodeVarint_of_examine_stop (i := avail f)
    (fun j hj => not_stopsAt_of_cont (by omega) hj (hcont j hj)) ?_
  simp [examine, shortBuffer]

theorem decodeVarint_of_overflows (bias : OvfBias) {f : Operands} (h : Overflows f) :
    decodeVarint bias f = overflowResponse bias := by
  obtain ⟨hv, hcont, hb⟩ := h
  have hvalid : shortBuffer f 9 = false := decide_eq_false (by omega)
  exact decodeVarint_of_examine_stop (i := 9)
    (fun j hj => not_stopsAt_of_cont hj (by omega) (hcont j hj)) (examine_nine_overflows bias f _ hvalid hb)

/-- Everything DECODE can answer (R92). -/
theorem decodeVarint_cases (bias : OvfBias) (f : Operands) :
    (∃ n, TerminatesAt f n ∧ decodeVarint bias f = okResponse (varintValue (f.buf.toList.take n)) n) ∨
      RunsShort f ∧ decodeVarint bias f = shortResponse ∨
      Overflows f ∧ decodeVarint bias f = overflowResponse bias := by
  obtain ⟨n, h⟩ | h | h := terminates_or_runsShort_or_overflows f
  · exact .inl ⟨n, h, decodeVarint_of_terminatesAt bias h⟩
  · exact .inr (.inl ⟨h, decodeVarint_of_runsShort bias h⟩)
  · exact .inr (.inr ⟨h, decodeVarint_of_overflows bias h⟩)

/-! ### The obligations -/

/-- Settles O20: the three ways a window ends, each with its response; one of them always holds. -/
theorem decodeResponseByCases : Obligations.DecodeResponseByCases := by
  unfold Obligations.DecodeResponseByCases
  refine ⟨fun bias f => ⟨?_, ?_, ?_, terminates_or_runsShort_or_overflows f⟩,
    fun bias f s => ⟨rfl, rfl, rfl⟩, fun bias => ?_⟩
  · exact fun n h1 hv hcont hterm hten => decodeVarint_of_terminatesAt bias ⟨h1, hv, hcont, hterm, hten⟩
  · exact fun hv hcont => decodeVarint_of_runsShort bias ⟨hv, hcont⟩
  · exact fun hv hcont hb => decodeVarint_of_overflows bias ⟨hv, hcont, hb⟩
  · cases bias <;> decide

/-- Settles O26: the groups ORed so far stay below the place of the next one, so the OR is a sum; and of the three
responses only OK has a value. -/
theorem accumulatedGroupsAreASum : Obligations.AccumulatedGroupsAreASum := by
  unfold Obligations.AccumulatedGroupsAreASum
  refine ⟨orGroups_zero, examine_of_passes, fun f i hi => ⟨orGroups_succ f i, ?_, fun h8 => ?_⟩,
    fun bias f hs => ?_⟩
  · rw [orGroups_succ, or_sh_toNat _ (orGroups_lt f i hi)]
  · exact orGroups_lt f (i + 1) (by omega)
  · obtain ⟨n, -, h⟩ | ⟨-, h⟩ | ⟨-, h⟩ := decodeVarint_cases bias f
    · exact absurd (congrArg Response.status h) hs
    · exact congrArg Response.value h
    · exact congrArg Response.value h

/-- Settles O25: the shifter as a product, exact up to index 8, and at index 9 for a byte of at most 0x01. -/
theorem byteShifterPlacesTheGroup : Obligations.ByteShifterPlacesTheGroup := by
  unfold Obligations.ByteShifterPlacesTheGroup
  refine ⟨fun b i _ => sh_toNat b i, fun b i hi => sh_toNat_of_le_eight b hi, sh_nine_toNat, fun b ho => ?_⟩
  have hb : b.toNat ≤ 1 := (overflowAt_eq_false_iff 9 b).mp ho rfl
  rw [sh_nine_toNat, Nat.mod_eq_of_lt (by omega)]

/-- Settles O27: the test in both forms, the indices at which it is idle, and the response it ends the decode with. -/
theorem overflowCheckerAtTheTenthByte : Obligations.OverflowCheckerAtTheTenthByte := by
  unfold Obligations.OverflowCheckerAtTheTenthByte
  refine ⟨fun b => ?_, fun b i hi => overflowAt_of_lt hi b, examine_nine_overflows⟩
  rw [Bool.eq_iff_iff, overflowAt_eq_true_iff, one_lt_toNat_iff]
  simp

/-- Settles O28: two fixed counts, and of the three responses only the overflow response has that status. -/
theorem overflowCountPatterns : Obligations.OverflowCountPatterns := by
  unfold Obligations.OverflowCountPatterns
  refine ⟨rfl, rfl, rfl, rfl, fun bias => rfl, fun bias f hs => ?_⟩
  obtain ⟨n, -, h⟩ | ⟨-, h⟩ | ⟨-, h⟩ := decodeVarint_cases bias f
  · rw [h] at hs; cases hs
  · rw [h] at hs; cases hs
  · exact congrArg Response.count h

end Sys2Proof.Machine
end

section
/-! SUPPORT. The host's tag parser by cases (R121): which responses it rejects, and how it splits the others. -/

namespace Sys2Proof.Machine

/-- The wire type is the value's lowest three bits, as a number. -/
theorem toNat_and_seven (v : U64) : (v &&& 0x7).toNat = v.toNat % 8 := by
  rw [BitVec.toNat_and]
  exact Nat.and_two_pow_sub_one_eq_mod v.toNat 3

/-- The wire type as a byte is read off the value's low byte. -/
theorem setWidth_and_seven (v : U64) : (v &&& 0x7).setWidth 8 = v.extractLsb' 0 8 &&& 0x7 := by
  rw [BitVec.setWidth_and, BitVec.setWidth_eq_extractLsb' (by decide)]
  rfl

/-- SHORT and OVERFLOW are rejected without a look at the value. -/
theorem parseTagResponse_of_count_nonpos {r : Response} (hc : r.count ≤ 0) : parseTagResponse r = Tag.rejected := by
  rw [parseTagResponse, if_pos hc]

/-- A value that is no tag is rejected. -/
theorem parseTagResponse_of_invalid {r : Response}
    (hv : (r.value >>> 3).toInt ≤ 0 ∨ 5 < r.value.toNat % 8) : parseTagResponse r = Tag.rejected := by
  rw [← toNat_and_seven] at hv
  rw [parseTagResponse, if_pos hv, ite_self]

/-- A counted value that is a tag is split into its two fields. -/
theorem parseTagResponse_of_valid {r : Response} (hc : 0 < r.count) (hf : 0 < (r.value >>> 3).toInt)
    (hw : r.value.toNat % 8 ≤ 5) :
    parseTagResponse r =
      { fieldNumber := r.value >>> 3, wireType := r.value.extractLsb' 0 8 &&& 0x7, consumed := toI32 r.count } := by
  have hv : ¬((r.value >>> 3).toInt ≤ 0 ∨ 5 < (r.value &&& 0x7).toNat) := by
    rw [toNat_and_seven]
    omega
  rw [parseTagResponse, if_neg hc.not_ge, if_neg hv, setWidth_and_seven]

/-- Settles O56: the parser reads the answer to DECODE, and each case of the answer is one path through its checks. -/
theorem tagParserFollowsTheResponse : Obligations.TagParserFollowsTheResponse := by
  unfold Obligations.TagParserFollowsTheResponse
  exact ⟨fun bias buf => rfl, fun r => ⟨parseTagResponse_of_count_nonpos, fun _ => parseTagResponse_of_invalid,
    parseTagResponse_of_valid⟩⟩

end Sys2Proof.Machine
end

section
/-! SUPPORT. The table of the response kinds (R131) as a relation between a request and its response, and what each
status says of both. -/

namespace Sys2Proof.Machine

/-- The rows of R131's table, the row of success once for DECODE and once for SIZE: a response and its cause. -/
inductive ResponseKind (bias : OvfBias) (i : Instr) : Response → Prop
  | decoded (n : Nat) (hop : i.op = 0b00#2) (hcause : TerminatesAt i.fields n) :
      ResponseKind bias i (okResponse (varintValue (i.fields.buf.toList.take n)) n)
  | sized (hop : i.op = 0b01#2) : ResponseKind bias i (sizeResponse (size i.fields.x))
  | short (hop : i.op = 0b00#2) (hcause : RunsShort i.fields) : ResponseKind bias i shortResponse
  | overflow (hop : i.op = 0b00#2) (hcause : Overflows i.fields) : ResponseKind bias i (overflowResponse bias)
  | illegal (hop : i.op = 0b10#2 ∨ i.op = 0b11#2) : ResponseKind bias i illegalResponse

/-- Every request is answered by a row of the table. -/
theorem respond_responseKind (bias : OvfBias) (i : Instr) : ResponseKind bias i (respond bias i) := by
  cases i with
  | decode f =>
    rw [respond]
    obtain ⟨n, hcause, h⟩ | ⟨hcause, h⟩ | ⟨hcause, h⟩ := decodeVarint_cases bias f <;> rw [h]
    · exact .decoded n rfl hcause
    · exact .short rfl hcause
    · exact .overflow rfl hcause
  | size f => exact .sized rfl
  | rsvd2 f => exact .illegal (.inl rfl)
  | rsvd3 f => exact .illegal (.inr rfl)

/-! ### What the op code and the cause say of the response -/

/-- Op code 0b00 is answered by the decoder (R57). -/
theorem respond_of_op_decode (bias : OvfBias) {i : Instr} (hop : i.op = 0b00#2) :
    respond bias i = decodeVarint bias i.fields := by
  cases i with
  | decode f => rfl
  | size f => cases hop
  | rsvd2 f => cases hop
  | rsvd3 f => cases hop

theorem respond_of_op_reserved (bias : OvfBias) {i : Instr} (hop : i.op = 0b10#2 ∨ i.op = 0b11#2) :
    respond bias i = illegalResponse := by
  cases i with
  | decode f => obtain hop | hop := hop <;> cases hop
  | size f => obtain hop | hop := hop <;> cases hop
  | rsvd2 f => rfl
  | rsvd3 f => rfl

/-! ### What the status says of the response and its cause -/

namespace ResponseKind

variable {bias : OvfBias} {i : Instr} {r : Response}

theorem of_status_short : ResponseKind bias i r → r.status = .short →
    (i.op = 0b00#2 ∧ RunsShort i.fields) ∧ r = shortResponse
  | .short hop hcause, _ => ⟨⟨hop, hcause⟩, rfl⟩

theorem of_status_overflow : ResponseKind bias i r → r.status = .overflow →
    (i.op = 0b00#2 ∧ Overflows i.fields) ∧ r = overflowResponse bias
  | .overflow hop hcause, _ => ⟨⟨hop, hcause⟩, rfl⟩

theorem of_status_illegal : ResponseKind bias i r → r.status = .illegal →
    (i.op = 0b10#2 ∨ i.op = 0b11#2) ∧ r = illegalResponse
  | .illegal hop, _ => ⟨hop, rfl⟩

/-- The two rows of success. -/
theorem of_status_ok : ResponseKind bias i r → r.status = .ok →
    (i.op = 0b00#2 ∧
        ∃ n, TerminatesAt i.fields n ∧ r = okResponse (varintValue (i.fields.buf.toList.take n)) n) ∨
      i.op = 0b01#2 ∧ r = sizeResponse (size i.fields.x)
  | .decoded n hop hcause, _ => .inl ⟨hop, n, hcause, rfl⟩
  | .sized hop, _ => .inr ⟨hop, rfl⟩

end ResponseKind

/-- The count and the value of a success. -/
theorem respond_of_status_ok {bias : OvfBias} {i : Instr} (hs : (respond bias i).status = .ok) :
    1 ≤ (respond bias i).count ∧ (respond bias i).count ≤ 10 ∧ (i.op = 0b00#2 ∨ i.op = 0b01#2) ∧
      (i.op = 0b00#2 →
        (respond bias i).value = varintValue (i.fields.buf.toList.take (respond bias i).count.toNat)) ∧
      (i.op = 0b01#2 → (respond bias i).value = 0) := by
  obtain ⟨hop, n, hcause, h⟩ | ⟨hop, h⟩ := (respond_responseKind bias i).of_status_ok hs <;> rw [h]
  · obtain ⟨hone, hvalid, -⟩ := hcause
    have hten : n ≤ 10 := hvalid.trans (avail_le _)
    exact ⟨Int.ofNat_le.mpr hone, Int.ofNat_le.mpr hten, .inl hop, fun _ => rfl,
      fun hsize => by simp [hop] at hsize⟩
  · exact ⟨Int.ofNat_le.mpr (one_le_size _), Int.ofNat_le.mpr (size_le_ten _), .inr hop,
      fun hdecode => by simp [hop] at hdecode, fun _ => rfl⟩

theorem respond_status_short_iff (bias : OvfBias) (i : Instr) :
    (respond bias i).status = .short ↔ i.op = 0b00#2 ∧ RunsShort i.fields := by
  refine ⟨fun hs => ((respond_responseKind bias i).of_status_short hs).1, fun ⟨hop, hcause⟩ => ?_⟩
  rw [respond_of_op_decode bias hop, decodeVarint_of_runsShort bias hcause, shortResponse]

theorem respond_status_overflow_iff (bias : OvfBias) (i : Instr) :
    (respond bias i).status = .overflow ↔ i.op = 0b00#2 ∧ Overflows i.fields := by
  refine ⟨fun hs => ((respond_responseKind bias i).of_status_overflow hs).1, fun ⟨hop, hcause⟩ => ?_⟩
  rw [respond_of_op_decode bias hop, decodeVarint_of_overflows bias hcause, overflowResponse]

theorem respond_status_illegal_iff (bias : OvfBias) (i : Instr) :
    (respond bias i).status = .illegal ↔ i.op = 0b10#2 ∨ i.op = 0b11#2 := by
  refine ⟨fun hs => ((respond_responseKind bias i).of_status_illegal hs).1, fun hop => ?_⟩
  rw [respond_of_op_reserved bias hop, illegalResponse]

/-- Settles O22: every request is answered by a row of R131's table, and its status tells which. -/
theorem everyRequestHasOneResponseKind : Obligations.EveryRequestHasOneResponseKind := by
  unfold Obligations.EveryRequestHasOneResponseKind
  refine ⟨⟨rfl, rfl, rfl, rfl⟩, fun bias i => ⟨respond_of_status_ok,
    respond_status_short_iff bias i, fun hs => ?_, respond_status_overflow_iff bias i, fun hs => ?_,
    respond_status_illegal_iff bias i, fun hs => ?_⟩⟩
  · rw [((respond_responseKind bias i).of_status_short hs).2]
    exact ⟨rfl, rfl⟩
  · rw [((respond_responseKind bias i).of_status_overflow hs).2]
    exact ⟨rfl, rfl⟩
  · rw [((respond_responseKind bias i).of_status_illegal hs).2]
    exact ⟨rfl, rfl⟩

end Sys2Proof.Machine
end

section
/-! SUPPORT. A busy edge does not read the ports (R19, R159): each operation it can be made of does the same work whatever
levels the host drives; with the obligations on the ports of a BUSY block (R159) and on the reset edge (R152). -/

namespace Sys2Proof.Machine

/-! ### The busy edge under other port levels -/

/-- The state at whose next edge the host drives p. -/
def State.withPorts (s : State) (p : InPorts) : State := { s with ports := p }

section WithPorts

variable (s : State) (p : InPorts)

@[simp] theorem State.withPorts_acc : (s.withPorts p).acc = s.acc := rfl
@[simp] theorem State.withPorts_idx : (s.withPorts p).idx = s.idx := rfl
@[simp] theorem State.withPorts_params : (s.withPorts p).params = s.params := rfl

/-- The levels of an edge are gone after it: the host drives its next ones. -/
@[simp] theorem State.tick_withPorts : (s.withPorts p).tick = s.tick := rfl

theorem State.finish_withPorts (r : Response) : (s.withPorts p).finish r = (s.finish r).withPorts p := rfl

theorem State.finishOrWait_withPorts (r : Response) :
    (s.withPorts p).finishOrWait r = (s.finishOrWait r).withPorts p := by
  rw [State.finishOrWait, State.finishOrWait, apply_ite (State.withPorts · p)]
  rfl

theorem State.sizeIterate_withPorts : (s.withPorts p).sizeIterate = s.sizeIterate.withPorts p := by
  rw [State.sizeIterate, State.sizeIterate, apply_ite (State.withPorts · p)]
  rfl

theorem State.decodeIterate_withPorts (f : Operands) :
    (s.withPorts p).decodeIterate f = (s.decodeIterate f).withPorts p := by
  rw [State.decodeIterate, State.decodeIterate, State.withPorts_params, State.withPorts_idx, State.withPorts_acc]
  cases examine s.params.ovfBias f s.idx.toNat s.acc with
  | stop r => rfl
  | more a => rfl

theorem State.illegalStep_withPorts : (s.withPorts p).illegalStep = s.illegalStep.withPorts p := by
  by_cases h : s.Reference
  · rw [s.illegalStep_of_reference h, (s.withPorts p).illegalStep_of_reference h, State.finish_withPorts]
  · rw [s.illegalStep_of_not_reference h, (s.withPorts p).illegalStep_of_not_reference h,
      State.finishOrWait_withPorts]

/-- DECODE works the same under any levels. -/
theorem execDecode_withPorts (f : Operands) :
    ∃ t, execDecode f s = .next t ∧ execDecode f (s.withPorts p) = .next (t.withPorts p) := by
  rw [execDecode, execDecode, State.withPorts_params]
  cases s.params.decodeStrategy with
  | unrolled => exact ⟨_, rfl, rfl⟩
  | iterative => exact ⟨_, rfl, congrArg _ (s.decodeIterate_withPorts p f)⟩
  | other => exact ⟨_, rfl, congrArg _ (s.finishOrWait_withPorts p _)⟩

theorem execSize_withPorts (f : Operands) :
    ∃ t, execSize f s = .next t ∧ execSize f (s.withPorts p) = .next (t.withPorts p) := by
  rw [execSize, execSize, State.withPorts_params]
  cases s.params.sizeStrategy with
  | flat => exact ⟨_, rfl, rfl⟩
  | iterative => exact ⟨_, rfl, congrArg _ (s.sizeIterate_withPorts p)⟩
  | other => exact ⟨_, rfl, congrArg _ (s.finishOrWait_withPorts p _)⟩

/-- Every request kind leaves the same registers under any levels. -/
theorem exec_withPorts (i : Instr) :
    ∃ t, exec i s = .next t ∧ exec i (s.withPorts p) = .next (t.withPorts p) := by
  cases i with
  | decode f => exact execDecode_withPorts s p f
  | size f => exact execSize_withPorts s p f
  | rsvd2 f => exact ⟨_, rfl, congrArg _ (s.illegalStep_withPorts p)⟩
  | rsvd3 f => exact ⟨_, rfl, congrArg _ (s.illegalStep_withPorts p)⟩

end WithPorts

/-- Two busy edges that differ in the levels alone leave the same state, as long as neither is a reset edge. -/
theorem step_withPorts_of_busy {s : State} {p : InPorts} (hb : s.busy = true) (hr : s.ports.rst = false)
    (hp : p.rst = false) : step (s.withPorts p) = step s := by
  obtain ⟨t, ht, htp⟩ := exec_withPorts s p s.latched
  calc step (s.withPorts p)
      = tickOutcome (exec s.latched (s.withPorts p)) := step_of_busy hp hb
    _ = tickOutcome (exec s.latched s) := by
      rw [htp, ht, tickOutcome_next, tickOutcome_next, State.tick_withPorts]
    _ = step s := (step_of_busy hr hb).symm

/-! ### The obligations -/

/-- Settles O44: a BUSY block is not ready, and its edge runs the latched request, whatever the ports hold. -/
theorem busyBlockIgnoresItsPorts : Obligations.BusyBlockIgnoresItsPorts := by
  unfold Obligations.BusyBlockIgnoresItsPorts
  exact fun s p hb hr hp => ⟨State.reqReady_of_busy hb, step_withPorts_of_busy hb hr hp⟩

/-- Settles O46: reset wins whatever the phase (R137), and the reset edge leaves an IDLE block, which is ready as soon as
`rst` is low. -/
theorem resetEdgeClearsTheBlock : Obligations.ResetEdgeClearsTheBlock := by
  unfold Obligations.ResetEdgeClearsTheBlock
  intro s hr
  have hbusy : s.resetEdge.tick.busy = false := rfl
  exact ⟨State.reqReady_of_rst hr, s.resetEdge.tick, step_of_rst hr, hbusy, rfl, rfl, rfl, rfl, rfl,
    fun hrst => (State.reqReady_iff _).mpr ⟨hbusy, hrst⟩⟩

end Sys2Proof.Machine
end

section
/-! SUPPORT. Requests and their words in both directions (R53, R58), the byte form of a word (log entry 7), and which fields
an edge reads (R55); with the obligations on the request encoding (spec/30_encoding.md) that follow from them. -/

namespace Sys2Proof

/-! ### The REQ word in both directions -/

/-- Settles O1: the encoder joins the fields, and a joined word gives each of them back. -/
theorem encodedRequestDecodesToItself : Obligations.EncodedRequestDecodesToItself := by
  unfold Obligations.EncodedRequestDecodesToItself
  intro i
  rw [encode_eq_joinFields, decodeReq_joinFields, Window.ofPort_toPort]
  exact i.ofOp_op

/-- Settles O2: the op map keeps the op code and the fields, and a word is its four fields joined. -/
theorem decodedWordEncodesToItself : Obligations.DecodedWordEncodesToItself := by
  unfold Obligations.DecodedWordEncodesToItself
  intro w
  rw [encode, decodeReq, Instr.fields_ofOp, Instr.op_ofOp, reqOperands, Window.toPort_ofPort]
  exact join_fields w

/-! ### The byte form -/

@[simp] theorem bytesOfNat_length (k n : Nat) : (bytesOfNat k n).length = k := by
  induction k generalizing n with
  | zero => rfl
  | succ k ih => rw [bytesOfNat, List.length_cons, ih]

/-- The k low bytes of a number, read back, are the number modulo 256^k. -/
theorem natOfBytes_bytesOfNat (k n : Nat) : natOfBytes (bytesOfNat k n) = n % 256 ^ k := by
  induction k generalizing n with
  | zero => rw [bytesOfNat, natOfBytes, pow_zero, Nat.mod_one]
  | succ k ih =>
    have hbyte : (BitVec.ofNat 8 n).toNat = n % 256 := BitVec.toNat_ofNat n 8
    rw [bytesOfNat, natOfBytes, ih, hbyte, pow_succ', Nat.mod_mul]

theorem natOfBytes_encodeBytes (i : Instr) : natOfBytes (encodeBytes i) = (encode i).toNat := by
  have hlt : (encode i).toNat < 256 ^ reqBytes := (encode i).isLt.trans (by decide)
  rw [encodeBytes, natOfBytes_bytesOfNat, Nat.mod_eq_of_lt hlt]

/-- The number of a word denotes what the word denotes. -/
theorem decodeNumber_toNat (w : BitVec 150) (rest : List Byte) :
    decodeNumber w.toNat rest = .request (decodeReq w) rest := by
  rw [decodeNumber, if_pos w.isLt, BitVec.ofNat_toNat, BitVec.setWidth_eq]

/-- Settles O3: the first 19 bytes are those of the request, which its word gives back. -/
theorem encodedBytesDecodeToTheRequest : Obligations.EncodedBytesDecodeToTheRequest := by
  unfold Obligations.EncodedBytesDecodeToTheRequest
  intro i rest
  have hlen : (encodeBytes i).length = reqBytes := bytesOfNat_length _ _
  have hlong : ¬(encodeBytes i ++ rest).length < reqBytes := by rw [List.length_append, hlen]; omega
  rw [decodeBytes, if_neg hlong, List.take_left' hlen, List.drop_left' hlen, natOfBytes_encodeBytes,
    decodeNumber_toNat, encodedRequestDecodesToItself i]

/-- Settles O59: the pseudo-form denotes its bytes and their number, and a request's word holds ten bytes. -/
theorem pseudoFormKeepsTheFirstTenBytes : Obligations.PseudoFormKeepsTheFirstTenBytes := by
  unfold Obligations.PseudoFormKeepsTheFirstTenBytes
  intro bytes hl hb
  exact ⟨_, assemble_decodeList bytes hl hb, encode_decode_text bytes.length bytes (by omega) hb⟩

/-- Settles O7: four fixed words. -/
theorem sampleReqWordsDecode : Obligations.SampleReqWordsDecode := by
  unfold Obligations.SampleReqWordsDecode
  exact ⟨by decide, by decide, by decide, by decide⟩

end Sys2Proof

namespace Sys2Proof.Machine

/-! ### What an edge reads of the operands -/

/-- A SIZE edge reads no operand but x (R55). -/
theorem execSize_congr {f g : Operands} (h : f.x = g.x) (s : State) : execSize f s = execSize g s := by
  rw [execSize, execSize, h]

/-- Operands with the same x, the same valid length and the same window bytes give the same edge, whatever op code they
stand with. -/
theorem exec_ofOp_congr (op : BitVec 2) {f g : Operands} (ha : avail f = avail g)
    (hm : memRead f = memRead g) (hx : f.x = g.x) (s : State) :
    exec (Instr.ofOp op f) s = exec (Instr.ofOp op g) s := by
  simp only [Instr.ofOp]
  split
  · exact execDecode_congr ha hm s
  split
  · exact execSize_congr hx s
  split
  · rfl
  · rfl

/-- Settles O11: each unit's edge reads its own operands; a reserved request reads none. -/
theorem unreadFieldsChangeNothing : Obligations.UnreadFieldsChangeNothing := by
  unfold Obligations.UnreadFieldsChangeNothing
  intro f g s
  refine ⟨fun hbuf hlen => ?_, fun hx => execSize_congr hx s, rfl, rfl⟩
  have ha : avail f = avail g := by rw [avail, avail, hlen]
  exact execDecode_congr ha (memRead_congr hbuf) s

end Sys2Proof.Machine
end

section
/-! SUPPORT. The size of a value as its bit length (R82) and as a count of comparators (R79), and the edges of the two
reference datapaths (R79, R80); with the obligations on the size calculator (spec/40_size_calculator.md) that follow. -/

namespace Sys2Proof.Machine

/-! ### The bit length -/

/-- The bit length of a value, 0 for the value 0 (R82). -/
def bitLength (x : U64) : Nat := if x = 0 then 0 else Nat.log2 x.toNat + 1

/-- A value has at most m bits exactly when it is below 2^m. -/
theorem bitLength_le_iff (x : U64) (m : Nat) : bitLength x ≤ m ↔ x.toNat < 2 ^ m := by
  rw [bitLength]
  split
  case isTrue h =>
    subst h
    exact iff_of_true (Nat.zero_le m) (Nat.two_pow_pos m)
  case isFalse h =>
    have hne : x.toNat ≠ 0 := fun h0 => h (BitVec.eq_of_toNat_eq h0)
    exact Nat.log2_lt hne

/-- Both sides are at most k under the same condition: the value fits k groups of seven bits. -/
theorem size_eq_groups_of_bitLength (x : U64) : size x = max 1 ((bitLength x + 6) / 7) := by
  refine eq_of_forall_ge_iff fun k => ?_
  by_cases hk : 1 ≤ k
  · have hpos : 0 < 2 ^ (7 * k) := Nat.two_pow_pos _
    rw [size_le_iff x hk, Nat.le_sub_one_iff_lt hpos, ← bitLength_le_iff]
    omega
  · have hone := one_le_size x
    omega

/-- A smaller value has no greater size. -/
theorem size_mono {x y : U64} (h : x.toNat ≤ y.toNat) : size x ≤ size y :=
  (size_le_iff x (one_le_size y)).mpr (h.trans (toNat_le_classBound_size y))

/-- Settles O15: the closed form and monotonicity, both from `size x ≤ k`. -/
theorem sizeIsSevenBitGroupsOfTheBitLength : Obligations.SizeIsSevenBitGroupsOfTheBitLength := by
  unfold Obligations.SizeIsSevenBitGroupsOfTheBitLength
  exact ⟨size_eq_groups_of_bitLength, fun _ _ => size_mono⟩

/-! ### The FLAT edge -/

/-- A comparator that is 1 stays 1 for the next bound (R79). -/
theorem comparator_mono {x : U64} {k : Nat} (h : x.toNat ≤ threshold k) : x.toNat ≤ threshold (k + 1) := by
  rw [toNat_le_threshold_iff] at h ⊢
  exact h.trans (classBound_mono (Nat.le_succ k))

/-- The size is ten less the number of comparators that are 1: those of its own class and above (R79). -/
theorem size_eq_ten_sub_comparators (x : U64) :
    size x = 10 - ([1, 2, 3, 4, 5, 6, 7, 8, 9].map fun j => if x.toNat ≤ threshold j then 1 else 0).sum := by
  have hcomp : ∀ j ∈ [1, 2, 3, 4, 5, 6, 7, 8, 9],
      (if x.toNat ≤ threshold j then 1 else 0) = if size x ≤ j then 1 else 0 := fun j hj => by
    have hj1 : 1 ≤ j := by simp at hj; omega
    simp only [size_le_iff_threshold x hj1]
  have h1 := one_le_size x
  have h10 := size_le_ten x
  rw [List.map_congr_left hcomp]
  generalize size x = k at h1 h10 ⊢
  interval_cases k <;> rfl

/-- Settles O17: the chain of comparators computes the size. -/
theorem flatSizePostsTheContract : Obligations.FlatSizePostsTheContract := by
  unfold Obligations.FlatSizePostsTheContract
  exact fun f s hflat => execSize_of_flat hflat

/-- Settles O16: the class the chain picks is the size, the least class that holds the value. -/
theorem flatSizeEdgeFinishes : Obligations.FlatSizeEdgeFinishes := by
  unfold Obligations.FlatSizeEdgeFinishes
  refine ⟨fun x k => comparator_mono, fun f s hflat =>
    ⟨size f.x, one_le_size f.x, size_le_ten f.x, fun _ => ?_, fun j hj hlt => ?_,
      size_eq_ten_sub_comparators f.x, flatSizePostsTheContract f s hflat⟩⟩
  · exact (size_le_iff_threshold f.x (one_le_size f.x)).mp le_rfl
  · rw [← size_le_iff_threshold f.x hj]
    exact hlt.not_ge

/-! ### The ITERATIVE edge -/

/-- The counter is at work for as long as shifts remain, one shift per edge. -/
theorem State.SizingAt.reaches {s : State} {x : U64} {c : Nat} (k : Nat) (h : s.SizingAt x c)
    (hk : c + k < size x) (hr : s.NoResetFor k) : ∃ u, edges k s = .next u ∧ u.SizingAt x (c + k) := by
  induction k generalizing s c with
  | zero => exact ⟨s, rfl, h⟩
  | succ k ih =>
    have hstep := h.step_eq hr.head
    obtain ⟨u, hu, hat⟩ := ih (h.sizeIterate_more (by omega)).tick (by omega) (hr.step hstep)
    exact ⟨u, (edges_succ k hstep).trans hu, by rwa [Nat.add_right_comm, Nat.add_assoc] at hat⟩

/-- Settles O18: the registers follow the counter from its acceptance on, and the edge is a shift and a test. -/
theorem iterativeSizeEdge : Obligations.IterativeSizeEdge := by
  unfold Obligations.IterativeSizeEdge
  refine ⟨fun s p => ⟨rfl, rfl⟩, fun s ⟨hrst, hidle, hvalid⟩ hop hiter j h1 hj hr => ?_,
    fun x => ⟨?_, fun j hj hlt => ?_⟩, fun f s hiter => ?_⟩
  · obtain ⟨k, rfl⟩ := Nat.exists_eq_add_of_le' h1
    have haccept := step_of_offer hrst hidle hvalid
    have hten := size_le_ten s.ports.reqX
    obtain ⟨u, hu, hat⟩ := (State.accept_sizingAt hop hiter).tick.reaches k (by omega) (hr.step haccept)
    rw [Nat.zero_add] at hat
    exact ⟨u, (edges_succ k haccept).trans hu, hat.in_flight.1, hat.remainder, hat.count, by omega⟩
  · exact (shiftRight_eq_zero_iff x (one_le_size x)).mpr le_rfl
  · exact fun hz => hlt.not_ge ((shiftRight_eq_zero_iff x hj).mp hz)
  · have hexec : exec (.size f) s = .next s.sizeIterate := execSize_of_iterative hiter
    rw [hexec]
    obtain ⟨hz, he⟩ | ⟨hne, he⟩ := s.sizeIterate_cases
    · exact ⟨fun _ => congrArg _ he, fun hne => absurd hz hne⟩
    · exact ⟨fun hz => absurd hz hne, fun _ => ⟨_, _, _, congrArg _ he⟩⟩

end Sys2Proof.Machine
end

section
/-! SUPPORT. The canonical encoding as a relation that follows R64's loop (R64), what it and every varint is like (R61 to R65),
and windows that hold one (R67); with the obligations on round trips (spec/30_encoding.md section 3,
spec/41_varint_decoder.md section 4) and on the tag parser (spec/48_host_tag_parser.md). -/

namespace Sys2Proof.Machine

/-! ### Varints -/

/-- The one byte of a varint that ends it is its last (R61), which scanning finds (R62). -/
theorem findIdx?_of_isVarint {bs : List Byte} (h : isVarint bs = true) :
    bs.findIdx? (fun b => !cont b) = some (bs.length - 1) := by
  induction bs with
  | nil => cases h
  | cons b bs ih =>
    cases bs with
    | nil =>
      rw [isVarint] at h
      simp [List.findIdx?_cons, h]
    | cons b' bs =>
      rw [isVarint, Bool.and_eq_true] at h
      · simp [List.findIdx?_cons, h.1, ih h.2]
      · exact List.cons_ne_nil _ _

theorem scanLength_of_isVarint {bs : List Byte} (h : isVarint bs = true) : scanLength bs = some bs.length := by
  have hpos : bs ≠ [] := by rintro rfl; cases h
  have hlen := List.length_pos_iff.mpr hpos
  rw [scanLength, findIdx?_of_isVarint h, Option.map_some, Nat.sub_add_cancel hlen]

/-- Every byte of a varint but the last continues (R61). -/
theorem cont_of_isVarint {bs : List Byte} (h : isVarint bs = true) {j : Nat} (hj : j + 1 < bs.length) :
    cont (bs.getD j 0) = true := by
  obtain ⟨_, _, hcont⟩ := List.findIdx?_eq_some_iff_getElem.mp (findIdx?_of_isVarint h)
  have hbyte := hcont j (by omega)
  rw [List.getD_eq_getElem _ _ (by omega)]
  simpa using hbyte

theorem cont_last_of_isVarint {bs : List Byte} (h : isVarint bs = true) :
    cont (bs.getD (bs.length - 1) 0) = false := by
  obtain ⟨hlt, hlast, _⟩ := List.findIdx?_eq_some_iff_getElem.mp (findIdx?_of_isVarint h)
  rw [List.getD_eq_getElem _ _ hlt]
  simpa using hlast

/-! ### The canonical encoding -/

/-- The byte that ends an encoding: the low group with bit 7 clear (R64). -/
def lastByte (v : U64) : Byte := (v.extractLsb' 0 7).setWidth 8

/-- The byte that the encoder goes on after: the low group with bit 7 set (R64). -/
def moreByte (v : U64) : Byte := 0x80#8 ||| lastByte v

@[simp] theorem cont_lastByte (v : U64) : cont (lastByte v) = false := by simp [cont, lastByte]

@[simp] theorem cont_moreByte (v : U64) : cont (moreByte v) = true := by simp [cont, moreByte]

@[simp] theorem grp_lastByte (v : U64) : grp (lastByte v) = v.extractLsb' 0 7 := by
  ext k hk
  have hk8 : k < 8 := by omega
  simp [grp, lastByte, hk, hk8]

@[simp] theorem grp_moreByte (v : U64) : grp (moreByte v) = v.extractLsb' 0 7 := by
  rw [← grp_lastByte]
  ext k hk
  interval_cases k <;> simp [grp, moreByte]

/-- The bytes R64's loop writes for v: the low group alone when nothing is left after it, else the low group and then
the bytes of what is left. -/
inductive EncodesAs : U64 → List Byte → Prop
  | last (v : U64) (hv : v >>> 7 = 0) : EncodesAs v [lastByte v]
  | more (v : U64) (bs : List Byte) (hv : v >>> 7 ≠ 0) (hbs : EncodesAs (v >>> 7) bs) :
    EncodesAs v (moreByte v :: bs)

theorem size_of_shift_eq_zero {v : U64} (hv : v >>> 7 = 0) : size v = 1 :=
  le_antisymm ((shiftRight_eq_zero_iff v le_rfl).mp hv) (one_le_size v)

/-- A group taken off takes one off the size. -/
theorem size_of_shift_ne_zero {v : U64} (hv : v >>> 7 ≠ 0) : size v = size (v >>> 7) + 1 := by
  have htwo : 1 < size v := Nat.not_le.mp fun h => hv ((shiftRight_eq_zero_iff v le_rfl).mpr h)
  refine eq_of_forall_ge_iff fun k => ?_
  by_cases hk : 2 ≤ k
  · obtain ⟨j, rfl⟩ := Nat.exists_eq_add_of_le' (Nat.le_of_succ_le hk)
    have hj : 1 ≤ j := Nat.le_of_succ_le_succ hk
    have hshift : v >>> (7 * (j + 1)) = v >>> 7 >>> (7 * j) := by
      rw [← BitVec.shiftRight_add, Nat.mul_succ, Nat.add_comm]
    rw [← shiftRight_eq_zero_iff v (Nat.le_add_left 1 j), hshift, shiftRight_eq_zero_iff _ hj,
      Nat.add_le_add_iff_right]
  · have hone := one_le_size (v >>> 7)
    omega

/-- With enough rounds for the size of v the loop runs to its end. -/
theorem encFrom_encodesAs (n : Nat) (v : U64) (hn : size v ≤ n + 1) : EncodesAs v (encFrom n v) := by
  induction n generalizing v with
  | zero => exact .last v ((shiftRight_eq_zero_iff v le_rfl).mpr hn)
  | succ n ih =>
    by_cases hv : v >>> 7 = 0
    · rw [encFrom, if_neg (not_not.mpr hv)]
      exact .last v hv
    · have hrest := size_of_shift_ne_zero hv
      rw [encFrom, if_pos hv]
      exact .more v _ hv (ih _ (by omega))

theorem enc_encodesAs (v : U64) : EncodesAs v (enc v) := encFrom_encodesAs 9 v (size_le_ten v)

/-- The low group and the rest, each in its place, are the whole. -/
theorem lowGroup_or_rest (v : U64) (j : Nat) :
    (v.extractLsb' 0 7).setWidth 64 <<< (7 * j) ||| (v >>> 7) <<< (7 * (j + 1)) = v <<< (7 * j) := by
  have hsplit : (v.extractLsb' 0 7).setWidth 64 ||| (v >>> 7) <<< 7 = v := by
    ext k hk
    by_cases h : k < 7
    · simp [h, BitVec.getLsbD_eq_getElem hk]
    · have hk' : 7 + (k - 7) = k := by omega
      simp [h, hk', BitVec.getLsbD_eq_getElem hk]
  have hplace : (v >>> 7) <<< (7 * (j + 1)) = ((v >>> 7) <<< 7) <<< (7 * j) := by
    rw [← BitVec.shiftLeft_add, Nat.mul_succ, Nat.add_comm]
  rw [hplace, ← BitVec.shiftLeft_or_distrib, hsplit]

namespace EncodesAs

variable {v : U64} {bs : List Byte}

theorem length_eq_size (h : EncodesAs v bs) : bs.length = size v := by
  induction h with
  | last v hv => exact (size_of_shift_eq_zero hv).symm
  | more v bs hv _ ih => rw [List.length_cons, ih, size_of_shift_ne_zero hv]

theorem ne_nil (h : EncodesAs v bs) : bs ≠ [] := by
  cases h with
  | last => exact List.cons_ne_nil _ _
  | more => exact List.cons_ne_nil _ _

theorem isVarint_eq_true (h : EncodesAs v bs) : isVarint bs = true := by
  induction h with
  | last v => simp [isVarint]
  | more v bs _ hbs ih =>
    rw [isVarint, cont_moreByte, ih, Bool.and_self]
    exact hbs.ne_nil

/-- The bytes denote v, from whatever position they stand at (R63). -/
theorem valueFrom_eq (h : EncodesAs v bs) (j : Nat) : valueFrom j bs = v <<< (7 * j) := by
  induction h generalizing j with
  | last v hv =>
    have hwhole := lowGroup_or_rest v j
    rw [hv, BitVec.ofNat_eq_ofNat, BitVec.zero_shiftLeft, BitVec.or_zero] at hwhole
    rw [valueFrom, valueFrom, sh, grp_lastByte, BitVec.ofNat_eq_ofNat, BitVec.or_zero, hwhole]
  | more v bs _ _ ih => rw [valueFrom, sh, grp_moreByte, ih, lowGroup_or_rest]

/-- The last byte holds what is left of v when one group is. -/
theorem getLast?_eq (h : EncodesAs v bs) : bs.getLast? = some (lastByte (v >>> (7 * (size v - 1)))) := by
  induction h with
  | last v hv => rw [size_of_shift_eq_zero hv]; rfl
  | more v bs hv hbs ih =>
    have hone := one_le_size (v >>> 7)
    have hgroups : 7 * (size v - 1) = 7 + 7 * (size (v >>> 7) - 1) := by
      rw [size_of_shift_ne_zero hv]; omega
    rw [List.getLast?_cons_of_ne_nil hbs.ne_nil, ih, hgroups, BitVec.shiftRight_add]

end EncodesAs

theorem enc_length (v : U64) : (enc v).length = size v := (enc_encodesAs v).length_eq_size

theorem isVarint_enc (v : U64) : isVarint (enc v) = true := (enc_encodesAs v).isVarint_eq_true

/-- An encoding denotes its value (R65). -/
theorem varintValue_enc (v : U64) : varintValue (enc v) = v :=
  ((enc_encodesAs v).valueFrom_eq 0).trans (BitVec.shiftLeft_zero v)

/-- A tenth byte has the one bit that is left of 64, which is set (R65). -/
theorem enc_getLast?_of_size_ten {v : U64} (hv : size v = 10) : (enc v).getLast? = some 0x01#8 := by
  have hne : v >>> 63 ≠ 0 := fun hz => by
    have hnine : size v ≤ 9 := (shiftRight_eq_zero_iff v (by decide)).mp hz
    omega
  have hone : v >>> 63 = 1 := by bv_omega
  rw [(enc_encodesAs v).getLast?_eq, hv, hone]
  rfl

/-- Settles O33: what the encoder writes follows R64's loop, and each law goes by induction along the loop. -/
theorem canonicalEncodingIsAVarintOfItsValue : Obligations.CanonicalEncodingIsAVarintOfItsValue := by
  unfold Obligations.CanonicalEncodingIsAVarintOfItsValue
  intro v
  have hlen := enc_length v
  refine ⟨hlen, hlen ▸ size_le_ten v, isVarint_enc v, varintValue_enc v, ?_, fun hten => ?_⟩
  · rw [scanLength_of_isVarint (isVarint_enc v), hlen]
  · exact enc_getLast?_of_size_ten (hlen.symm.trans hten)

/-! ### Windows that hold an encoding -/

/-- Position j of a window made of a list holds the listed byte. -/
theorem memRead_ofList (x : U64) (bytes : List Byte) (l : BitVec 4) {j : Nat} (hj : j < 10) :
    memRead { x := x, buf := Window.ofList bytes, len := l } j = bytes.getD j 0 := by
  interval_cases j <;> rfl

/-- The first n bytes of a window made of a list are those of the list, as far as it and the window go. -/
theorem take_ofList (bytes : List Byte) {n : Nat} (hn : n ≤ bytes.length) (h10 : n ≤ 10) :
    (Window.ofList bytes).toList.take n = bytes.take n := by
  have hlist : (Window.ofList bytes).toList = (List.range 10).map (bytes.getD · 0) := rfl
  rw [hlist]
  refine List.ext_getElem (by simp; omega) fun j hj _ => ?_
  have hjn : j < bytes.length := by simp at hj; omega
  simp [hjn]

section Encoded

variable (v x : U64) (pad : List Byte) (l : BitVec 4)

/-- The operands of a DECODE request whose window holds the encoding of v and then the padding. -/
def encodedOperands : Operands := { x := x, buf := Window.ofList (enc v ++ pad), len := l }

theorem memRead_encodedOperands {j : Nat} (hj : j < size v) :
    memRead (encodedOperands v x pad l) j = (enc v).getD j 0 := by
  have hten := size_le_ten v
  have hlen := enc_length v
  rw [encodedOperands, memRead_ofList x _ l (by omega), List.getD_append _ _ _ _ (by omega)]

/-- Before its last byte an encoding continues. -/
theorem cont_encodedOperands {j : Nat} (hj : j + 1 < size v) :
    cont (memRead (encodedOperands v x pad l) j) = true := by
  rw [memRead_encodedOperands v x pad l (by omega)]
  exact cont_of_isVarint (isVarint_enc v) (by rwa [enc_length])

/-- A length that takes in the whole encoding makes its last byte the one that ends the decode. -/
theorem encodedOperands_terminatesAt (hl : size v ≤ l.toNat) : TerminatesAt (encodedOperands v x pad l) (size v) := by
  have hone := one_le_size v
  have hlen := enc_length v
  refine ⟨hone, le_min hl (size_le_ten v), fun j hj => cont_encodedOperands v x pad l hj, ?_, fun hten => ?_⟩
  · rw [memRead_encodedOperands v x pad l (by omega), ← hlen]
    exact cont_last_of_isVarint (isVarint_enc v)
  · have hlast := enc_getLast?_of_size_ten hten
    rw [List.getLast?_eq_getElem?, hlen, hten] at hlast
    rw [memRead_encodedOperands v x pad l (by omega), List.getD_eq_getElem?_getD, hlast]
    decide

/-- DECODE answers an encoding that its length takes in with the value and its size. -/
theorem decodeVarint_encodedOperands (bias : OvfBias) (hl : size v ≤ l.toNat) :
    decodeVarint bias (encodedOperands v x pad l) = okResponse v (size v) := by
  have hlen := enc_length v
  have hlong : size v ≤ (enc v ++ pad).length := by rw [List.length_append, hlen]; omega
  rw [decodeVarint_of_terminatesAt bias (encodedOperands_terminatesAt v x pad l hl), encodedOperands,
    take_ofList _ hlong (size_le_ten v), List.take_left' hlen, varintValue_enc]

/-- A length one below the size leaves only bytes that continue. -/
theorem encodedOperands_runsShort (hl : l.toNat + 1 = size v) : RunsShort (encodedOperands v x pad l) := by
  have hten := size_le_ten v
  have hle : l.toNat ≤ maxLen := by rw [maxLen]; omega
  have havail : avail (encodedOperands v x pad l) = l.toNat := Nat.min_eq_left hle
  exact ⟨by omega, fun j hj => cont_encodedOperands v x pad l (by omega)⟩

end Encoded

/-- Settles O34: the encoding terminates at its last byte, and denotes its value. -/
theorem encodedValueDecodesToItself : Obligations.EncodedValueDecodesToItself := by
  unfold Obligations.EncodedValueDecodesToItself
  exact fun bias v x pad l hl => decodeVarint_encodedOperands v x pad l bias hl

/-- Settles O35: without its last byte an encoding runs short. -/
theorem truncatedEncodingIsShort : Obligations.TruncatedEncodingIsShort := by
  unfold Obligations.TruncatedEncodingIsShort
  exact fun bias v x pad l hl => decodeVarint_of_runsShort bias (encodedOperands_runsShort v x pad l hl)

/-! ### Wide buffers -/

/-- The length field of a presented buffer, 15 for any longer one. -/
theorem presentBuffer_len (bytes : List Byte) : (presentBuffer bytes).len.toNat = min bytes.length 15 :=
  Nat.mod_eq_of_lt (by omega)

theorem cont_eq_true_iff (b : Byte) : cont b = true ↔ 128 ≤ b.toNat := by
  rw [cont, BitVec.getLsbD, Nat.testBit_eq_decide_div_mod_eq, decide_eq_true_iff]
  omega

/-- Settles O36: all ten bytes of the window are valid, and the tenth is above 0x01 in both cases. -/
theorem wideBuffersOverflow : Obligations.WideBuffersOverflow := by
  unfold Obligations.WideBuffersOverflow
  intro bias bytes hlen hcont hwide
  refine decodeVarint_of_overflows bias ⟨?_, fun j hj => ?_, ?_⟩
  · exact avail_of_ten_le _ (by rw [presentBuffer_len]; omega)
  · rw [presentBuffer, memRead_ofList _ _ _ (by omega)]
    exact hcont j hj
  · rw [presentBuffer, memRead_ofList _ _ _ (by decide)]
    rw [cont_eq_true_iff] at hwide
    omega

/-! ### Tags -/

/-- A tag has its wire type in the low three bits and its field number above them (R122). -/
theorem tagValue_toNat {fieldNumber : U64} (wireType : BitVec 3) (hf : fieldNumber.toNat < 2 ^ 61) :
    (tagValue fieldNumber wireType).toNat = fieldNumber.toNat * 8 + wireType.toNat := by
  have hw := wireType.isLt
  have hshift : (fieldNumber <<< 3).toNat = fieldNumber.toNat <<< 3 := by
    rw [BitVec.toNat_shiftLeft, Nat.shiftLeft_eq]
    omega
  have hwide : (wireType.setWidth 64).toNat = wireType.toNat := BitVec.toNat_setWidth_of_le (by decide)
  rw [tagValue, BitVec.toNat_or, hshift, hwide, ← Nat.shiftLeft_add_eq_or_of_lt hw, Nat.shiftLeft_eq]

theorem tagValue_shiftRight_three {fieldNumber : U64} (wireType : BitVec 3) (hf : fieldNumber.toNat < 2 ^ 61) :
    tagValue fieldNumber wireType >>> 3 = fieldNumber := by
  have hw := wireType.isLt
  apply BitVec.eq_of_toNat_eq
  rw [BitVec.toNat_ushiftRight, Nat.shiftRight_eq_div_pow, tagValue_toNat wireType hf]
  omega

theorem tagValue_and_seven {fieldNumber : U64} (wireType : BitVec 3) (hf : fieldNumber.toNat < 2 ^ 61) :
    (tagValue fieldNumber wireType).extractLsb' 0 8 &&& 0x7 = wireType.setWidth 8 := by
  rw [← setWidth_and_seven]
  apply BitVec.eq_of_toNat_eq
  rw [BitVec.toNat_setWidth, toNat_and_seven, tagValue_toNat wireType hf, BitVec.toNat_setWidth]
  omega

theorem toNat_shiftRight_three (v : U64) : (v >>> 3).toNat = v.toNat / 8 := by
  rw [BitVec.toNat_ushiftRight, Nat.shiftRight_eq_div_pow]

/-- Three bits shifted out leave at most 61, so the number is the same read as an `i64` (R124). -/
theorem toInt_shiftRight_three (v : U64) : (v >>> 3).toInt = (v.toNat / 8 : Nat) := by
  have hv := v.isLt
  have hdiv := toNat_shiftRight_three v
  rw [BitVec.toInt_eq_toNat_of_lt (by omega), hdiv]

/-- Settles O57: a field number is its value over 8, so a valid wire type is rejected for field number 0 alone. -/
theorem onlyFieldNumberZeroIsRejected : Obligations.OnlyFieldNumberZeroIsRejected := by
  unfold Obligations.OnlyFieldNumberZeroIsRejected
  intro r
  have hv := r.value.isLt
  have hint := toInt_shiftRight_three r.value
  by_cases hvalid : 0 < r.count ∧ 0 < (r.value >>> 3).toInt ∧ r.value.toNat % 8 ≤ 5
  · obtain ⟨hc, hf, hw⟩ := hvalid
    have hfield : (r.value >>> 3).toNat ≤ 2 ^ 61 - 1 := by rw [toNat_shiftRight_three]; omega
    rw [parseTagResponse_of_valid hc hf hw]
    refine ⟨⟨hfield, hf.le⟩, fun _ _ => iff_of_false (fun h => ?_) (by omega)⟩
    have hzero : r.value >>> 3 = 0 := congrArg Tag.fieldNumber h
    rw [hzero] at hf
    exact absurd hf (by decide)
  · have hrej : parseTagResponse r = Tag.rejected := by
      by_cases hc : r.count ≤ 0
      · exact parseTagResponse_of_count_nonpos hc
      · exact parseTagResponse_of_invalid (by omega)
    rw [hrej]
    exact ⟨by decide, fun hc hw => iff_of_true rfl (by omega)⟩

/-- The host's answer to a decoded value that is a tag. -/
theorem parseTagResponse_okResponse {v : U64} {n : Nat} (hn : 1 ≤ n) (hv : 8 ≤ v.toNat) (hw : v.toNat % 8 ≤ 5) :
    parseTagResponse (okResponse v n) =
      { fieldNumber := v >>> 3, wireType := v.extractLsb' 0 8 &&& 0x7, consumed := toI32 n } := by
  have hf : 0 < (v >>> 3).toInt := by rw [toInt_shiftRight_three]; omega
  exact parseTagResponse_of_valid (r := okResponse v n) (Int.ofNat_lt.mpr hn) hf hw

/-- A buffer is long enough for the encoding it starts with. -/
theorem size_le_presentBuffer_len (v : U64) (pad : List Byte) :
    size v ≤ (presentBuffer (enc v ++ pad)).len.toNat := by
  have hten := size_le_ten v
  rw [presentBuffer_len, List.length_append, enc_length]
  omega

/-- Settles O58: the encoded tag decodes to the tag's value, and the value splits into its two fields. -/
theorem encodedTagParsesToItself : Obligations.EncodedTagParsesToItself := by
  unfold Obligations.EncodedTagParsesToItself
  intro bias fieldNumber wireType pad hpos hf hw
  have htag := tagValue_toNat wireType hf
  have hdecode : decodeVarint bias (presentBuffer (enc (tagValue fieldNumber wireType) ++ pad)) =
      okResponse (tagValue fieldNumber wireType) (size (tagValue fieldNumber wireType)) :=
    decodeVarint_encodedOperands _ 0 pad _ bias (size_le_presentBuffer_len _ pad)
  rw [parseTag, hdecode, parseTagResponse_okResponse (one_le_size _) (by omega) (by omega),
    tagValue_shiftRight_three wireType hf, tagValue_and_seven wireType hf]

end Sys2Proof.Machine
end

section
/-! SUPPORT. The laws of an OK response (R106), the sign of the posted count (R134), the priority chain of the UNROLLED
datapath (R102) and one edge of the ITERATIVE one (R103); with the obligations on the varint decoder
(spec/41_varint_decoder.md) and on response counts (spec/60_exceptions.md) that follow from them. -/

namespace Sys2Proof.Machine

/-! ### The laws of an OK response -/

/-- The value of ten bytes has at bit 63 the lowest bit of the tenth: the other groups lie below it. -/
theorem orGroups_ten_getLsbD (f : Operands) : (orGroups f 10).getLsbD 63 = (memRead f 9).getLsbD 0 := by
  have hlow : (orGroups f 9).getLsbD 63 = false := Nat.testBit_lt_two_pow (orGroups_lt f 9 le_rfl)
  rw [orGroups_succ, BitVec.getLsbD_or, hlow, Bool.false_or]
  simp [sh, grp]

/-- Settles O21: an OK response comes from a byte that terminates, and its value is the groups up to that byte. -/
theorem decodeOkLaws : Obligations.DecodeOkLaws := by
  unfold Obligations.DecodeOkLaws
  intro bias f v c hok
  obtain ⟨n, hn, h⟩ | ⟨-, h⟩ | ⟨-, h⟩ := decodeVarint_cases bias f
  · obtain ⟨hone, havail, hcont, hterm, -⟩ := hn
    have hten : n ≤ 10 := havail.trans (avail_le f)
    have hvalue : varintValue (f.buf.toList.take n) = v := congrArg Response.value (h.symm.trans hok)
    have hcount : (n : Int) = c := congrArg Response.count (h.symm.trans hok)
    have hgroups : orGroups f n = v := (orGroups_eq_varintValue f n hten).trans hvalue
    refine ⟨n, hcount.symm, hone, hten, havail, hcont, hterm, hvalue.symm, fun h9 => ?_, fun h10 => ?_⟩
    · exact hgroups ▸ orGroups_lt f n h9
    · subst h10
      rw [← hgroups, orGroups_ten_getLsbD]
  · cases h.symm.trans hok
  · cases h.symm.trans hok

/-! ### The sign of the count -/

/-- A count in the range of an `i32` is read back from its pattern (R6). -/
theorem toI32_toInt {n : Int} (hlow : -2 ^ 31 ≤ n) (hhigh : n < 2 ^ 31) : (toI32 n).toInt = n :=
  BitVec.toInt_ofInt_eq_self (by decide) hlow hhigh

/-- Settles O23: the count is 1 to 10, 0, or -(9 + OVF_BIAS), by the status. -/
theorem decodeCountTellsTheStatus : Obligations.DecodeCountTellsTheStatus := by
  unfold Obligations.DecodeCountTellsTheStatus
  intro bias f
  obtain ⟨n, ⟨hone, havail, -⟩, h⟩ | ⟨-, h⟩ | ⟨-, h⟩ := decodeVarint_cases bias f <;> rw [h]
  · have hten := havail.trans (avail_le f)
    have hcount : (okResponse (varintValue (f.buf.toList.take n)) n).toRsp.count.toInt = n :=
      toI32_toInt (n := n) (by omega) (by omega)
    rw [hcount]
    simp only [okResponse, reduceCtorEq, true_iff, false_iff]
    omega
  · decide
  · cases bias <;> decide

/-! ### The UNROLLED edge -/

/-- At the stop the check that fires first answers, with the groups up to it. -/
theorem examine_stopIndex (bias : OvfBias) (f : Operands) :
    examine bias f (stopIndex f) (orGroups f (stopIndex f)) = .stop (unrolledResponse bias f) := by
  obtain ⟨-, hstop, -⟩ := stopIndex_spec f
  rw [examine_eq, if_pos hstop, ← orGroups_succ, unrolledResponse]

/-- The priority chain and the loop of R92 answer the same. -/
theorem unrolledResponse_eq_decodeVarint (bias : OvfBias) (f : Operands) :
    unrolledResponse bias f = decodeVarint bias f := by
  obtain ⟨-, -, hmin⟩ := stopIndex_spec f
  exact (decodeVarint_of_examine_stop hmin (examine_stopIndex bias f)).symm

theorem execDecode_of_unrolled {f : Operands} {s : State} (h : s.params.decodeStrategy = .unrolled) :
    execDecode f s = .next (s.finish (decodeVarint s.params.ovfBias f)) := by
  rw [execDecode, h, unrolledResponse_eq_decodeVarint]

/-- Settles O29: the priority chain picks the response of the loop. -/
theorem unrolledDecodeEdgeFinishes : Obligations.UnrolledDecodeEdgeFinishes := by
  unfold Obligations.UnrolledDecodeEdgeFinishes
  exact fun f s hunrolled => execDecode_of_unrolled hunrolled

/-! ### Where the decode stops -/

/-- The index where DECODE stops is valid or the first past the valid bytes. -/
theorem stopIndex_le_avail (f : Operands) : stopIndex f ≤ avail f := by
  obtain ⟨-, -, hmin⟩ := stopIndex_spec f
  refine Nat.not_lt.mp fun hlt => ?_
  obtain ⟨hvalid, -, -⟩ := (not_stopsAt_iff f (avail f)).mp (hmin _ hlt)
  exact absurd hvalid (lt_irrefl _)

/-- Settles O32: the status says which check of the priority chain has fired at the stop. -/
theorem decodeStopIndexByKind : Obligations.DecodeStopIndexByKind := by
  unfold Obligations.DecodeStopIndexByKind
  intro bias f
  obtain ⟨h9, -, -⟩ := stopIndex_spec f
  have hle := stopIndex_le_avail f
  refine ⟨h9, ?_⟩
  rw [← unrolledResponse_eq_decodeVarint]
  simp only [unrolledResponse]
  cases hshort : shortBuffer f (stopIndex f) with
  | true =>
    have havail : avail f ≤ stopIndex f := of_decide_eq_true hshort
    exact ⟨nofun, fun _ => le_antisymm hle havail, nofun⟩
  | false =>
    cases hovf : overflowAt (stopIndex f) (memRead f (stopIndex f)) with
    | true => exact ⟨nofun, nofun, fun _ => ((overflowAt_eq_true_iff _ _).mp hovf).1⟩
    | false => exact ⟨fun _ => rfl, nofun, nofun⟩

/-! ### The ITERATIVE edge -/

theorem execDecode_of_iterative {f : Operands} {s : State} (h : s.params.decodeStrategy = .iterative) :
    execDecode f s = .next (s.decodeIterate f) := by
  rw [execDecode, h]

theorem State.decodeIterate_of_stop {s : State} {f : Operands} {r : Response}
    (h : examine s.params.ovfBias f s.idx.toNat s.acc = .stop r) : s.decodeIterate f = s.finish r := by
  rw [State.decodeIterate, h]

theorem State.decodeIterate_of_more {s : State} {f : Operands} {a : U64}
    (h : examine s.params.ovfBias f s.idx.toNat s.acc = .more a) :
    s.decodeIterate f = { s.stayBusy with acc := a, idx := s.idx + 1 } := by
  rw [State.decodeIterate, h]

/-- Past the valid bytes the short-buffer detector ends the decode (R99). -/
theorem examine_of_avail_le (bias : OvfBias) {f : Operands} {i : Nat} (a : U64) (h : avail f ≤ i) :
    examine bias f i a = .stop shortResponse := by
  simp [examine, shortBuffer, h]

/-- An index at which no check fires is at most 8 (R103). -/
theorem le_eight_of_not_stopsAt {f : Operands} {i : Nat} (h : stopsAt f i = false) : i ≤ 8 := by
  obtain ⟨hvalid, -, -⟩ := (not_stopsAt_iff f i).mp h
  have hten := avail_le f
  have hnine : i ≠ 9 := by
    rintro rfl
    rw [stopsAt_nine] at h
    cases h
  omega

/-- Settles O30: each clause is one answer of `examine`, in the order of its checks. -/
theorem iterativeDecodeEdge : Obligations.IterativeDecodeEdge := by
  unfold Obligations.IterativeDecodeEdge
  refine ⟨fun s p => ⟨rfl, rfl⟩, fun f s hiter => ?_⟩
  have hexec : exec (.decode f) s = .next (s.decodeIterate f) := execDecode_of_iterative hiter
  have hvalid : s.idx.toNat < avail f → shortBuffer f s.idx.toNat = false :=
    fun h => decide_eq_false h.not_ge
  have hpass : ¬(s.idx.toNat = 9 ∧ 1 < (memRead f s.idx.toNat).toNat) →
      overflowAt s.idx.toNat (memRead f s.idx.toNat) = false :=
    fun h => (overflowAt_eq_false_iff _ _).mpr fun h9 => Nat.not_lt.mp fun hb => h ⟨h9, hb⟩
  rw [hexec]
  refine ⟨fun hshort => ?_, fun hlt h9 hb => ?_, fun hlt hovf hterm => ?_, fun hlt hovf hcont => ?_⟩
  · rw [State.decodeIterate_of_stop (examine_of_avail_le _ _ hshort)]
    rfl
  · have hexamine : examine s.params.ovfBias f s.idx.toNat s.acc = .stop (overflowResponse s.params.ovfBias) := by
      rw [h9] at hlt hb ⊢
      exact examine_nine_overflows _ f _ (decide_eq_false hlt.not_ge) hb
    rw [State.decodeIterate_of_stop hexamine]
    rfl
  · have hexamine := examine_of_passes s.params.ovfBias f s.idx.toNat s.acc (hvalid hlt) (hpass hovf)
    rw [cont, hterm] at hexamine
    rw [State.decodeIterate_of_stop hexamine]
    rfl
  · have hexamine := examine_of_passes s.params.ovfBias f s.idx.toNat s.acc (hvalid hlt) (hpass hovf)
    rw [cont, hcont] at hexamine
    have h8 := le_eight_of_not_stopsAt ((not_stopsAt_iff f _).mpr ⟨hlt, hpass hovf, hcont⟩)
    have hnext : (s.idx + 1).toNat = s.idx.toNat + 1 := by bv_omega
    rw [State.decodeIterate_of_more hexamine]
    exact ⟨hnext, by omega, _, _, _, rfl⟩

end Sys2Proof.Machine
end

section
/-! SUPPORT. The busy edge by the unit and strategy that run it (R29, R163), and the words the latches and the ports hold
(R19, R28); with the obligations on busy edges, reserved requests and reset (spec/10_state.md section 7,
spec/42_reserved_requests.md, spec/70_reset_and_hazards.md) that follow from them. -/

namespace Sys2Proof.Machine

/-! ### The busy edge by unit and strategy -/

/-- The ITERATIVE decoder runs the request (R29). -/
abbrev State.DecodesIteratively (s : State) (i : Instr) : Prop :=
  i.op = 0b00#2 ∧ s.params.decodeStrategy = .iterative

/-- The ITERATIVE bit counter runs the request (R29). -/
abbrev State.SizesIteratively (s : State) (i : Instr) : Prop :=
  i.op = 0b01#2 ∧ s.params.sizeStrategy = .iterative

/-- The latency of the request is a draw: its unit follows no reference strategy, or either does for a reserved request
(R163, log entry 9). -/
abbrev State.DrawsLatency (s : State) (i : Instr) : Prop :=
  i.op = 0b00#2 ∧ s.params.decodeStrategy = .other ∨ i.op = 0b01#2 ∧ s.params.sizeStrategy = .other ∨
    (i.op = 0b10#2 ∨ i.op = 0b11#2) ∧ ¬s.Reference

/-- A request of drawn latency finishes with its response or waits. -/
theorem exec_of_drawsLatency {i : Instr} {s : State} (h : s.DrawsLatency i) :
    exec i s = .next (s.finishOrWait (respond s.params.ovfBias i)) := by
  cases i with
  | decode f =>
    have hother : s.params.decodeStrategy = .other := by simpa [State.DrawsLatency, Instr.op] using h
    rw [exec, execDecode, hother, respond]
  | size f =>
    have hother : s.params.sizeStrategy = .other := by simpa [State.DrawsLatency, Instr.op] using h
    rw [exec, execSize, hother, respond]
  | rsvd2 f =>
    have hnot : ¬s.Reference := by simpa [State.DrawsLatency, Instr.op] using h
    rw [exec, execRsvd2, s.illegalStep_of_not_reference hnot, respond]
  | rsvd3 f =>
    have hnot : ¬s.Reference := by simpa [State.DrawsLatency, Instr.op] using h
    rw [exec, execRsvd3, s.illegalStep_of_not_reference hnot, respond]

/-- A request that no iterative datapath runs and whose latency is no draw is answered at once (R79, R102, R117). -/
theorem exec_of_one_edge {i : Instr} {s : State} (hdec : ¬s.DecodesIteratively i) (hsize : ¬s.SizesIteratively i)
    (hdraw : ¬s.DrawsLatency i) : exec i s = .next (s.finish (respond s.params.ovfBias i)) := by
  cases i with
  | decode f =>
    have hunrolled : s.params.decodeStrategy = .unrolled := by
      cases hs : s.params.decodeStrategy <;> simp [Instr.op, hs] at hdec hdraw ⊢
    exact execDecode_of_unrolled hunrolled
  | size f =>
    have hflat : s.params.sizeStrategy = .flat := by
      cases hs : s.params.sizeStrategy <;> simp [Instr.op, hs] at hsize hdraw ⊢
    exact execSize_of_flat hflat
  | rsvd2 f =>
    have href : s.Reference := not_not.mp fun h => hdraw (.inr (.inr ⟨.inl rfl, h⟩))
    rw [exec, execRsvd2, s.illegalStep_of_reference href, respond]
  | rsvd3 f =>
    have href : s.Reference := not_not.mp fun h => hdraw (.inr (.inr ⟨.inr rfl, h⟩))
    rw [exec, execRsvd3, s.illegalStep_of_reference href, respond]

theorem exec_of_decodesIteratively {i : Instr} {s : State} (h : s.DecodesIteratively i) :
    exec i s = .next (s.decodeIterate i.fields) := by
  obtain ⟨hop, hiter⟩ := h
  cases i with
  | decode f => exact execDecode_of_iterative hiter
  | size f => cases hop
  | rsvd2 f => cases hop
  | rsvd3 f => cases hop

theorem exec_of_sizesIteratively {i : Instr} {s : State} (h : s.SizesIteratively i) :
    exec i s = .next s.sizeIterate := by
  obtain ⟨hop, hiter⟩ := h
  cases i with
  | decode f => cases hop
  | size f => exact execSize_of_iterative hiter
  | rsvd2 f => cases hop
  | rsvd3 f => cases hop

/-- Everything a busy edge can do: outside the two iterative datapaths it finishes with the request's response or waits,
with busy edges left. -/
theorem exec_cases (i : Instr) (s : State) :
    s.DecodesIteratively i ∧ exec i s = .next (s.decodeIterate i.fields) ∨
      s.SizesIteratively i ∧ exec i s = .next s.sizeIterate ∨
      (¬s.DecodesIteratively i ∧ ¬s.SizesIteratively i) ∧
        (exec i s = .next (s.finish (respond s.params.ovfBias i)) ∨
          s.waited + 1 < s.params.latMax ∧ exec i s = .next s.stayBusy) := by
  by_cases hdec : s.DecodesIteratively i
  · exact .inl ⟨hdec, exec_of_decodesIteratively hdec⟩
  by_cases hsize : s.SizesIteratively i
  · exact .inr (.inl ⟨hsize, exec_of_sizesIteratively hsize⟩)
  refine .inr (.inr ⟨⟨hdec, hsize⟩, ?_⟩)
  by_cases hdraw : s.DrawsLatency i
  · rw [exec_of_drawsLatency hdraw]
    exact (s.finishOrWait_cases _).imp (congrArg _) (And.imp_right (congrArg _))
  · exact .inl (exec_of_one_edge hdec hsize hdraw)

/-- Settles O38: such a request is answered by a draw, which has no choice at the bound. -/
theorem otherImplementationsFinishOrWait : Obligations.OtherImplementationsFinishOrWait := by
  unfold Obligations.OtherImplementationsFinishOrWait
  intro i s hdraw
  rw [exec_of_drawsLatency hdraw]
  refine ⟨?_, fun hbound => congrArg _ (s.finishOrWait_at_bound _ hbound)⟩
  obtain h | ⟨hlt, h⟩ := s.finishOrWait_cases (respond s.params.ovfBias i)
  · exact .inl (congrArg _ h)
  · exact .inr ⟨hlt, _, _, _, congrArg _ h⟩

/-- A reserved request is answered at once in a reference block, and in any block at the bound. -/
theorem State.illegalStep_eq_finish {s : State} (h : s.Reference ∨ s.params.latMax ≤ s.waited + 1) :
    s.illegalStep = s.finish illegalResponse := by
  by_cases href : s.Reference
  · exact s.illegalStep_of_reference href
  · rw [s.illegalStep_of_not_reference href, s.finishOrWait_at_bound _ (h.resolve_left href)]

/-- Settles O37: both reserved requests run the ILLEGAL step. -/
theorem reservedRequestsAnswerIllegal : Obligations.ReservedRequestsAnswerIllegal := by
  unfold Obligations.ReservedRequestsAnswerIllegal
  exact fun f s h => ⟨congrArg _ (State.illegalStep_eq_finish h), congrArg _ (State.illegalStep_eq_finish h)⟩

/-- Settles O48: every busy edge answers a next state, and so does every other edge. -/
theorem everyEdgeHasANextState : Obligations.EveryEdgeHasANextState := by
  unfold Obligations.EveryEdgeHasANextState
  refine ⟨fun i s => ?_, fun s => ?_⟩
  · obtain ⟨t, ht, -⟩ := exec_busyEdge i s
    exact ⟨t, ht⟩
  · obtain ⟨u, hu, -⟩ := step_eq_tick s
    exact ⟨u.tick, hu⟩

/-! ### What a busy edge keeps -/

/-- What `exec` leaves is what a busy edge can leave. -/
theorem busyEdge_of_exec {i : Instr} {s t : State} (h : exec i s = .next t) : s.BusyEdge t := by
  obtain ⟨u, hu, hedge⟩ := exec_busyEdge i s
  cases hu.symm.trans h
  exact hedge

/-- No busy edge moves the host's levels, the parameters or the draw counter. -/
theorem State.BusyEdge.keeps_surroundings {s t : State} (h : s.BusyEdge t) :
    t.ports = s.ports ∧ t.script = s.script ∧ t.params = s.params ∧ t.draws = s.draws := by
  obtain ⟨r, rfl⟩ | ⟨acc, idx, szRem, szCnt, rfl⟩ := h
  · exact ⟨rfl, rfl, rfl, rfl⟩
  · exact ⟨rfl, rfl, rfl, rfl⟩

/-- The block goes to DONE or its phase stays (R30). -/
theorem State.BusyEdge.phase {s t : State} (h : s.BusyEdge t) :
    t.busy = false ∧ t.done = true ∨ t.busy = s.busy ∧ t.done = s.done := by
  obtain ⟨r, rfl⟩ | ⟨acc, idx, szRem, szCnt, rfl⟩ := h
  · exact .inl ⟨rfl, rfl⟩
  · exact .inr ⟨rfl, rfl⟩

/-- Only the ITERATIVE decoder writes `acc` and `idx` (R20). -/
theorem exec_keeps_decoder {i : Instr} {s t : State} (h : exec i s = .next t) (hdec : ¬s.DecodesIteratively i) :
    t.acc = s.acc ∧ t.idx = s.idx := by
  obtain ⟨hyes, -⟩ | ⟨-, he⟩ | ⟨-, he | ⟨-, he⟩⟩ := exec_cases i s
  · exact absurd hyes hdec
  · cases he.symm.trans h
    obtain ⟨-, hs⟩ | ⟨-, hs⟩ := s.sizeIterate_cases <;> rw [hs] <;> exact ⟨rfl, rfl⟩
  · cases he.symm.trans h
    exact ⟨rfl, rfl⟩
  · cases he.symm.trans h
    exact ⟨rfl, rfl⟩

/-- Only the ITERATIVE bit counter writes `sz_rem` and `sz_cnt` (R21). -/
theorem exec_keeps_counter {i : Instr} {s t : State} (h : exec i s = .next t) (hsize : ¬s.SizesIteratively i) :
    t.szRem = s.szRem ∧ t.szCnt = s.szCnt := by
  obtain ⟨-, he⟩ | ⟨hyes, -⟩ | ⟨-, he | ⟨-, he⟩⟩ := exec_cases i s
  · cases he.symm.trans h
    obtain ⟨r, -, hs⟩ | ⟨a, -, hs⟩ := s.decodeIterate_cases i.fields <;> rw [hs] <;> exact ⟨rfl, rfl⟩
  · exact absurd hyes hsize
  · cases he.symm.trans h
    exact ⟨rfl, rfl⟩
  · cases he.symm.trans h
    exact ⟨rfl, rfl⟩

/-- Settles O39: every busy edge finishes or stays, and each pair of datapath registers has one writer. -/
theorem busyEdgeFrame : Obligations.BusyEdgeFrame := by
  unfold Obligations.BusyEdgeFrame
  intro i s t h
  have hedge := busyEdge_of_exec h
  obtain ⟨hop, hx, hbuf, havail⟩ := hedge.keeps_latches
  obtain ⟨hports, hscript, hparams, hdraws⟩ := hedge.keeps_surroundings
  exact ⟨hop, hx, hbuf, havail, hports, hscript, hparams, hdraws, exec_keeps_decoder h, exec_keeps_counter h,
    hedge.phase⟩

/-! ### The words in the latches and on the ports -/

/-- The latched word denotes the latched request (R19, R53). -/
theorem decodeReq_latchedWord (s : State) : decodeReq s.latchedWord = s.latched := by
  have hword : s.latchedWord = joinFields s.availR (Window.toPort s.bufR) s.xR s.opR := rfl
  rw [hword, decodeReq_joinFields, Window.ofPort_toPort, State.latched]

/-- Settles O40: the latched word is the latched request, which the busy edge runs. -/
theorem busyStepRunsTheDecodedRequest : Obligations.BusyStepRunsTheDecodedRequest := by
  unfold Obligations.BusyStepRunsTheDecodedRequest
  intro s i hr hb hword t ht
  rw [step_of_busy hr hb, ← decodeReq_latchedWord, hword, ht]
  rfl

/-- The word on the ports denotes the offered request (R53). -/
theorem decodeReq_portsWord (p : InPorts) : decodeReq p.word = p.offered := by
  rw [p.word_eq_joinFields, decodeReq_joinFields, InPorts.offered]

/-- What acceptance latches runs as what was offered: the length counts through `avail` alone (R19, R60). -/
theorem exec_latched_accept (s t : State) (p : InPorts) : exec (s.accept p).latched t = exec p.offered t := by
  have havail := avail_availBits p.reqX p.reqX (Window.ofPort p.reqBuf) (Window.ofPort p.reqBuf) p.reqLen
  exact exec_ofOp_congr p.reqOp havail (memRead_congr rfl) rfl t

/-- A block that accepts takes the request on its ports at the next edge (R28). -/
theorem State.Accepts.step_eq {s : State} (h : s.Accepts) : step s = .next (s.accept s.ports).tick :=
  step_of_offer h.1 h.2.1 h.2.2

theorem edges_one (s : State) : edges 1 s = step s := by
  obtain ⟨u, hu, -⟩ := step_eq_tick s
  rw [edges_succ 0 hu, edges_zero, hu]

/-- Settles O41: the first edge latches the request and the second runs it. -/
theorem offeredRequestRunsAtTheNextEdge : Obligations.OfferedRequestRunsAtTheNextEdge := by
  unfold Obligations.OfferedRequestRunsAtTheNextEdge
  intro s hacc hr
  rw [edges_succ 1 hacc.step_eq, edges_one, step_of_busy (hr.step hacc.step_eq).head rfl, State.tick_latched,
    exec_latched_accept, decodeReq_portsWord]

/-! ### After a reset -/

/-- The levels after an edge offer no request when the script it keeps offers none. -/
theorem no_request_after_tick {s u : State} {n : Nat} (hu : u.script = s.script)
    (hv : ∀ p ∈ s.script.take n, p.reqValid = false) : ∀ p ∈ u.tick.levels.take n, p.reqValid = false := by
  intro p hp
  obtain rfl | hp := levels_tick_mem n p hu hp
  · rfl
  · exact hv p hp

/-- Without a request an IDLE block stays IDLE, whether or not it is in reset. -/
theorem edges_of_idle_no_request (n : Nat) {s : State} (hb : s.busy = false) (hd : s.done = false)
    (hv : ∀ p ∈ s.levels.take n, p.reqValid = false) :
    ∃ t, edges n s = .next t ∧ t.done = false ∧ t.busy = false := by
  induction n generalizing s with
  | zero => exact ⟨s, rfl, hd, hb⟩
  | succ n ih =>
    have hscript : ∀ p ∈ s.script.take n, p.reqValid = false := fun p hp =>
      hv p (mem_levels_of_mem_script n p hp)
    cases hr : s.ports.rst with
    | true =>
      obtain ⟨t, ht, hidle⟩ := ih (s := s.resetEdge.tick) rfl rfl (no_request_after_tick rfl hscript)
      exact ⟨t, (edges_succ n (step_of_rst hr)).trans ht, hidle⟩
    | false =>
      have hquiet := hv s.ports (by simp [State.levels])
      obtain ⟨t, ht, hidle⟩ := ih (s := s.tick) hb hd (no_request_after_tick rfl hscript)
      exact ⟨t, (edges_succ n (step_of_quiet hr hb hquiet)).trans ht, hidle⟩

/-- Settles O47: the reset edge leaves an IDLE block, which stays so until a request is offered. -/
theorem resetAbandonsTheRequest : Obligations.ResetAbandonsTheRequest := by
  unfold Obligations.ResetAbandonsTheRequest
  intro n s hr hv
  obtain ⟨t, ht, hidle⟩ :=
    edges_of_idle_no_request n (s := s.resetEdge.tick) rfl rfl (no_request_after_tick rfl hv)
  exact ⟨t, (edges_succ n (step_of_rst hr)).trans ht, hidle⟩

end Sys2Proof.Machine
end

section
/-! SUPPORT. The invariant: what starts it, and how each kind of edge keeps it (R17 to R22, R29, R80, R103); with the
obligations on it (spec/10_state.md sections 2 to 5 and 8, spec/70_reset_and_hazards.md sections 1 and 2). -/

namespace Sys2Proof.Machine

/-! ### The ITERATIVE decoder by its distance from the stop -/

section DecodeIterate

variable {s : State} {f : Operands}

/-- At the stop the edge answers the decode (R103). -/
theorem State.decodeIterate_at_stop (hidx : s.idx.toNat = stopIndex f) (hacc : s.acc = orGroups f s.idx.toNat) :
    s.decodeIterate f = s.finish (decodeVarint s.params.ovfBias f) := by
  have hexamine := examine_stopIndex s.params.ovfBias f
  rw [← hidx, ← hacc, unrolledResponse_eq_decodeVarint] at hexamine
  exact State.decodeIterate_of_stop hexamine

/-- Before the stop the edge takes in its group and goes on to the next index (R103). -/
theorem State.decodeIterate_before_stop (hidx : s.idx.toNat < stopIndex f)
    (hacc : s.acc = orGroups f s.idx.toNat) :
    s.decodeIterate f = { s.stayBusy with acc := orGroups f (s.idx.toNat + 1), idx := s.idx + 1 } := by
  obtain ⟨-, -, hmin⟩ := stopIndex_spec f
  refine State.decodeIterate_of_more ?_
  rw [examine_eq, hmin _ hidx, hacc, orGroups_succ]
  rfl

/-- Before the stop the index has room for one more: it does not wrap. -/
theorem idx_succ_toNat (hidx : s.idx.toNat < stopIndex f) : (s.idx + 1).toNat = s.idx.toNat + 1 := by
  obtain ⟨h9, -, -⟩ := stopIndex_spec f
  bv_omega

end DecodeIterate

/-- Every index up to which the valid bytes continue is one the decoder reaches. -/
theorem le_stopIndex {f : Operands} {i : Nat} (h9 : i ≤ 9) (hvalid : i ≤ avail f)
    (hcont : ∀ j < i, cont (memRead f j) = true) : i ≤ stopIndex f := by
  obtain ⟨-, hstop, -⟩ := stopIndex_spec f
  refine Nat.not_lt.mp fun hlt => ?_
  rw [not_stopsAt_of_cont (by omega) (by omega) (hcont _ hlt)] at hstop
  cases hstop

/-- One more byte examined: the decoder stands at the next index (R97, R103). -/
theorem State.Decoding.next {s : State} (h : s.Decoding) (hlt : s.idx.toNat < stopIndex s.latchedOperands) :
    State.Decoding
      { s.stayBusy with acc := orGroups s.latchedOperands (s.idx.toNat + 1), idx := s.idx + 1 } := by
  have hnext := idx_succ_toNat hlt
  obtain ⟨-, -, hmin⟩ := stopIndex_spec s.latchedOperands
  obtain ⟨hvalid, -, hcont⟩ := (not_stopsAt_iff _ _).mp (hmin _ hlt)
  refine ⟨?_, hnext.le.trans hvalid, fun j hj => ?_, congrArg (orGroups s.latchedOperands) hnext.symm⟩
  · exact (congrArg (· + 1) h.edges_spent).trans hnext.symm
  · obtain hj | rfl := Nat.lt_succ_iff_lt_or_eq.mp (hj.trans_eq hnext)
    · exact h.continuing j hj
    · exact hcont

/-- The count of a counter at work is below the size: the shifts done have not reached zero (R80). -/
theorem State.Sizing.szCnt_lt_size {s : State} (h : s.Sizing) : s.szCnt.toNat < size s.xR := by
  have hone := one_le_size s.xR
  obtain hzero | hne := h.not_done
  · rw [hzero]
    exact hone
  · by_cases hc : 1 ≤ s.szCnt.toNat
    · rw [h.remainder, Ne, shiftRight_eq_zero_iff _ hc] at hne
      exact Nat.not_le.mp hne
    · omega

/-- One more shift done (R80). -/
theorem State.Sizing.next {s : State} (h : s.Sizing) (hne : s.szRem >>> 7 ≠ 0)
    (hnext : (s.szCnt + 1).toNat = s.szCnt.toNat + 1) :
    State.Sizing { s.stayBusy with szRem := s.szRem >>> 7, szCnt := s.szCnt + 1 } := by
  refine ⟨(congrArg (· + 1) h.edges_spent).trans hnext.symm, ?_, .inr hne⟩
  show s.szRem >>> 7 = s.xR >>> (7 * (s.szCnt + 1).toNat)
  rw [hnext, h.remainder, ← BitVec.shiftRight_add, Nat.mul_succ]

@[simp] theorem State.latched_op (s : State) : s.latched.op = s.opR := Instr.op_ofOp _ _

@[simp] theorem State.latched_fields (s : State) : s.latched.fields = s.latchedOperands := Instr.fields_ofOp _ _

/-! ### What starts the invariant -/

/-- An IDLE block with legal parameters meets the invariant, whatever its other registers hold. -/
theorem inv_of_idle {s : State} (hl : s.params.Legal) (hb : s.busy = false) (hd : s.done = false) : s.Inv := by
  have hbusy : s.busy ≠ true := by simp [hb]
  have hdone : s.done ≠ true := by simp [hd]
  exact ⟨hl, fun h => hbusy h.1, fun h => absurd h hbusy, fun h => absurd h hbusy, fun h => absurd h hbusy,
    fun h => absurd h hbusy, fun h => absurd h hbusy, fun h => absurd h hbusy, fun h => absurd h hdone⟩

/-- Acceptance starts it: no byte is examined and no shift done (R28). -/
theorem inv_accept {s : State} (p : InPorts) (hl : s.params.Legal) : (s.accept p).Inv where
  legal := hl
  phases h := by cases h.2
  avail_range _ := by
    rw [State.accept_availR, availBits_toNat]
    exact min_le_right _ _
  idx_range _ := Nat.zero_le 9
  szCnt_range _ := Nat.zero_le 9
  bounded _ := hl.1
  decoding _ _ _ := ⟨rfl, Nat.zero_le _, fun j hj => absurd hj (Nat.not_lt_zero j), rfl⟩
  sizing _ _ _ := ⟨rfl, (BitVec.ushiftRight_zero _).symm, .inl rfl⟩
  posted h := by cases h

/-- `finish` with the response of the latched request starts it, whatever came before (R22, R30). -/
theorem inv_finish {s : State} (hl : s.params.Legal) : (s.finish (respond s.params.ovfBias s.latched)).Inv where
  legal := hl
  phases h := by cases h.1
  avail_range h := by cases h
  idx_range h := by cases h
  szCnt_range h := by cases h
  bounded h := by cases h
  decoding h := by cases h
  sizing h := by cases h
  posted _ := rfl

/-! ### What keeps it -/

namespace State.Inv

variable {s : State}

/-- It speaks of no level the host drives, and of no draw. -/
theorem surroundings (h : s.Inv) (ports : InPorts) (script : List InPorts) (draws : Nat) :
    State.Inv { s with ports := ports, script := script, draws := draws } where
  legal := h.legal
  phases := h.phases
  avail_range := h.avail_range
  idx_range := h.idx_range
  szCnt_range := h.szCnt_range
  bounded := h.bounded
  decoding hb hop hiter :=
    have hdec := h.decoding hb hop hiter
    ⟨hdec.edges_spent, hdec.examined, hdec.continuing, hdec.accumulated⟩
  sizing hb hop hiter :=
    have hsize := h.sizing hb hop hiter
    ⟨hsize.edges_spent, hsize.remainder, hsize.not_done⟩
  posted := h.posted

theorem tick (h : s.Inv) : s.tick.Inv := h.surroundings _ _ _

theorem done_eq_false (h : s.Inv) (hb : s.busy = true) : s.done = false :=
  Bool.eq_false_iff.mpr fun hd => h.phases ⟨hb, hd⟩

theorem busy_eq_false (h : s.Inv) (hd : s.done = true) : s.busy = false :=
  Bool.eq_false_iff.mpr fun hb => h.phases ⟨hb, hd⟩

/-- A block with an iterative unit has ten busy edges (R81, R105). -/
theorem ten_le_latMax (h : s.Inv)
    (hiter : s.params.sizeStrategy = .iterative ∨ s.params.decodeStrategy = .iterative) : 10 ≤ s.params.latMax := by
  obtain ⟨-, hshort⟩ := h.legal
  refine Nat.not_lt.mp fun hlt => ?_
  obtain ⟨hsize, hdec⟩ := hshort hlt
  exact hiter.elim hsize hdec

/-- Waiting is one more busy edge, with no iterative datapath at work (R29). -/
theorem stayBusy (h : s.Inv) (hb : s.busy = true) (hw : s.waited + 1 < s.params.latMax)
    (hdec : ¬s.DecodesIteratively s.latched) (hsize : ¬s.SizesIteratively s.latched) : s.stayBusy.Inv where
  legal := h.legal
  phases := h.phases
  avail_range := h.avail_range
  idx_range := h.idx_range
  szCnt_range := h.szCnt_range
  bounded _ := hw
  decoding _ hop hiter := absurd ⟨s.latched_op.trans hop, hiter⟩ hdec
  sizing _ hop hiter := absurd ⟨s.latched_op.trans hop, hiter⟩ hsize
  posted hd := absurd ⟨hb, hd⟩ h.phases

/-- The edge of the ITERATIVE decoder keeps it: it answers the decode at the stop, and one more byte is examined
before it (R103). -/
theorem decodeIterate (h : s.Inv) (hb : s.busy = true) (hdec : s.DecodesIteratively s.latched) :
    (s.decodeIterate s.latched.fields).Inv := by
  obtain ⟨hop, hiter⟩ := hdec
  rw [State.latched_op] at hop
  have hat := h.decoding hb hop hiter
  have hspent := hat.edges_spent
  have hten := h.ten_le_latMax (.inr hiter)
  obtain ⟨h9, -, -⟩ := stopIndex_spec s.latchedOperands
  rw [State.latched_fields]
  obtain heq | hlt := (le_stopIndex (h.idx_range hb) hat.examined hat.continuing).eq_or_lt
  · have hrespond : respond s.params.ovfBias s.latched = decodeVarint s.params.ovfBias s.latchedOperands := by
      rw [respond_of_op_decode _ (s.latched_op.trans hop), State.latched_fields]
    rw [State.decodeIterate_at_stop heq hat.accumulated, ← hrespond]
    exact inv_finish h.legal
  · have hidx : (s.idx + 1).toNat ≤ 9 := (idx_succ_toNat hlt).le.trans (by omega)
    have hwait : s.waited + 1 < s.params.latMax := by omega
    rw [State.decodeIterate_before_stop hlt hat.accumulated]
    exact
      { legal := h.legal, phases := h.phases, avail_range := h.avail_range, szCnt_range := h.szCnt_range
        idx_range := fun _ => hidx, bounded := fun _ => hwait, decoding := fun _ _ _ => hat.next hlt
        sizing := fun _ hsize => by cases hop.symm.trans hsize
        posted := fun hd => absurd ⟨hb, hd⟩ h.phases }

/-- The edge of the ITERATIVE bit counter keeps it: it answers the size at the last shift, and one more shift is done
before it (R80). -/
theorem sizeIterate (h : s.Inv) (hb : s.busy = true) (hsize : s.SizesIteratively s.latched) :
    s.sizeIterate.Inv := by
  obtain ⟨hop, hiter⟩ := hsize
  rw [State.latched_op] at hop
  have hsizing := h.sizing hb hop hiter
  have hspent := hsizing.edges_spent
  have hten := h.ten_le_latMax (.inl hiter)
  have hsize10 := size_le_ten s.xR
  have hat : s.SizingAt s.xR s.szCnt.toNat := ⟨⟨hb, h.done_eq_false hb⟩, hop, hiter, hsizing.remainder, rfl⟩
  obtain hlast | hlt := Nat.eq_or_lt_of_le (Nat.succ_le_of_lt hsizing.szCnt_lt_size)
  · have hrespond : respond s.params.ovfBias s.latched = sizeResponse (size s.xR) := by
      rw [State.latched_of_size hop]
      rfl
    rw [hat.sizeIterate_last hlast.symm, ← hrespond]
    exact inv_finish h.legal
  · have hnext : (s.szCnt + 1).toNat = s.szCnt.toNat + 1 := by bv_omega
    have hcnt : (s.szCnt + 1).toNat ≤ 9 := by omega
    have hwait : s.waited + 1 < s.params.latMax := by omega
    have hne : s.szRem >>> 7 ≠ 0 := fun hz => hlt.not_ge (hat.shifted_eq_zero_iff.mp hz)
    obtain ⟨hz, -⟩ | ⟨-, he⟩ := s.sizeIterate_cases
    · exact absurd hz hne
    rw [he]
    exact
      { legal := h.legal, phases := h.phases, avail_range := h.avail_range, idx_range := h.idx_range
        szCnt_range := fun _ => hcnt, bounded := fun _ => hwait
        decoding := fun _ hdec => by cases hop.symm.trans hdec
        sizing := fun _ _ _ => hsizing.next hne hnext, posted := fun hd => absurd ⟨hb, hd⟩ h.phases }

/-- Every busy edge keeps it. -/
theorem busyEdge {t : State} (h : s.Inv) (hb : s.busy = true) (ht : exec s.latched s = .next t) : t.Inv := by
  obtain ⟨hdec, he⟩ | ⟨hsize, he⟩ | ⟨⟨hdec, hsize⟩, he | ⟨hw, he⟩⟩ := exec_cases s.latched s
  · cases he.symm.trans ht
    exact h.decodeIterate hb hdec
  · cases he.symm.trans ht
    exact h.sizeIterate hb hsize
  · cases he.symm.trans ht
    exact inv_finish h.legal
  · cases he.symm.trans ht
    exact h.stayBusy hb hw hdec hsize

end State.Inv

/-! ### The obligations -/

/-- Settles O52: reset and acceptance start the invariant, and busy and idle edges keep it. -/
theorem everyEdgeKeepsTheInvariant : Obligations.EveryEdgeKeepsTheInvariant := by
  unfold Obligations.EveryEdgeKeepsTheInvariant
  intro s t hinv ht
  obtain ⟨-, h⟩ | ⟨-, hb, h⟩ | ⟨-, -, -, h⟩ | ⟨-, -, -, h⟩ := step_cases s
  · cases h.symm.trans ht
    exact inv_of_idle hinv.legal rfl rfl
  · obtain ⟨u, hu, -⟩ := exec_busyEdge s.latched s
    rw [hu, tickOutcome_next] at h
    cases h.symm.trans ht
    exact (hinv.busyEdge hb hu).tick
  · cases h.symm.trans ht
    exact (inv_accept s.ports hinv.legal).tick
  · cases h.symm.trans ht
    exact hinv.tick

/-- Settles O50: the reset state is IDLE, and its parameters are legal. -/
theorem resetStateMeetsTheInvariant : Obligations.ResetStateMeetsTheInvariant := by
  unfold Obligations.ResetStateMeetsTheInvariant
  exact inv_of_idle (by decide) rfl rfl

/-- Settles O51: a reset edge leaves an IDLE block and keeps the parameters. -/
theorem anyStateIsResetIntoTheInvariant : Obligations.AnyStateIsResetIntoTheInvariant := by
  unfold Obligations.AnyStateIsResetIntoTheInvariant
  exact fun s hl hr => ⟨_, step_of_rst hr, inv_of_idle hl rfl rfl⟩

/-- Settles O49: quiet edges change no register, and the invariant says whose response the registers hold. -/
theorem postedResponseStaysOnTheOutputs : Obligations.PostedResponseStaysOnTheOutputs := by
  unfold Obligations.PostedResponseStaysOnTheOutputs
  intro n s hinv hd hq
  have hb := hinv.busy_eq_false hd
  have hrsp := hinv.posted hd
  obtain ⟨t, ht, ps, scr, rfl⟩ := idleEdgesChangeNoRegister n s hb hq
  exact ⟨_, ht, hb, hd, congrArg Rsp.value hrsp, congrArg Rsp.count hrsp,
    congrArg (fun r => r.status.code) hrsp, (if_pos hd).trans hrsp⟩

end Sys2Proof.Machine
end

section
/-! SUPPORT. Runs from an accepted request to its response (R29, R162): how many busy edges each kind of block takes (R104,
R163), and a host that serves one request after another (R165); with the obligations on them (spec/10_state.md section 7,
spec/41_varint_decoder.md section 3, spec/70_reset_and_hazards.md sections 3 and 4). -/

namespace Sys2Proof.Machine

/-! ### Answering at an edge -/

/-- The block is BUSY before its d-th next edge, and leaves it with the response r posted. -/
def State.AnswersAt (s : State) (d : Nat) (r : Response) : Prop :=
  (∀ k < d, ∃ u, edges k s = .next u ∧ u.InFlight) ∧ ∃ t, edges d s = .next t ∧ t.Posts r

theorem State.Posts.answersAt_zero {s : State} {r : Response} (h : s.Posts r) : s.AnswersAt 0 r :=
  ⟨fun _ hk => absurd hk (Nat.not_lt_zero _), s, rfl, h⟩

/-- One busy edge more before the answer. -/
theorem State.AnswersAt.after_step {s u : State} {d : Nat} {r : Response} (hs : s.InFlight)
    (hstep : step s = .next u) (h : u.AnswersAt d r) : s.AnswersAt (d + 1) r := by
  obtain ⟨hbusy, t, ht, hposts⟩ := h
  refine ⟨fun k hk => ?_, t, (edges_succ d hstep).trans ht, hposts⟩
  cases k with
  | zero => exact ⟨s, rfl, hs⟩
  | succ k =>
    obtain ⟨v, hv, hflight⟩ := hbusy k (Nat.lt_of_succ_lt_succ hk)
    exact ⟨v, (edges_succ k hstep).trans hv, hflight⟩

/-- Seen from the acceptance edge, the block is BUSY for d edges and the answer comes one edge later. -/
theorem State.AnswersAt.of_accepts {s : State} {d : Nat} {r : Response} (hacc : s.Accepts)
    (h : (s.accept s.ports).tick.AnswersAt d r) :
    (∀ k, 1 ≤ k → k ≤ d → ∃ u, edges k s = .next u ∧ u.InFlight) ∧
      ∃ t, edges (d + 1) s = .next t ∧ t.Posts r := by
  obtain ⟨hbusy, t, ht, hposts⟩ := h
  refine ⟨fun k h1 hk => ?_, t, (edges_succ d hacc.step_eq).trans ht, hposts⟩
  obtain ⟨j, rfl⟩ := Nat.exists_eq_add_of_le' h1
  obtain ⟨u, hu, hflight⟩ := hbusy j hk
  exact ⟨u, (edges_succ j hacc.step_eq).trans hu, hflight⟩

/-- A busy edge that finishes answers. -/
theorem answersAt_one_of_exec {s : State} {r : Response} (hs : s.InFlight) (hr : s.ports.rst = false)
    (h : exec s.latched s = .next (s.finish r)) : s.AnswersAt 1 r := by
  have hstep : step s = .next (s.finish r).tick := by rw [step_of_busy hr hs.1, h, tickOutcome_next]
  exact (State.Posts.answersAt_zero (s.finish_tick_posts r)).after_step hs hstep

/-- The bit counter answers after its remaining shifts (R80). -/
theorem State.SizingAt.answersAt {s : State} {x : U64} {c n : Nat} (h : s.SizingAt x c)
    (hn : size x = c + n + 1) (hr : s.NoResetFor (n + 1)) : s.AnswersAt (n + 1) (sizeResponse (size x)) := by
  obtain ⟨hbusy, hlast⟩ := h.run n hn hr
  refine ⟨fun k hk => ?_, hlast⟩
  obtain ⟨u, hu, hat⟩ := hbusy k (Nat.le_of_lt_succ hk)
  exact ⟨u, hu, hat.in_flight⟩

/-! ### The run of the ITERATIVE decoder -/

/-- The ITERATIVE decoder is at work on a DECODE request for f and has examined i bytes (R97, R103). -/
structure State.DecodingAt (s : State) (f : Operands) (i : Nat) : Prop where
  in_flight   : s.InFlight
  op          : s.opR = 0b00#2
  strategy    : s.params.decodeStrategy = .iterative
  operands    : s.latchedOperands = f
  index       : s.idx.toNat = i
  accumulated : s.acc = orGroups f i

namespace State.DecodingAt

variable {s : State} {f : Operands} {i : Nat}

theorem tick (h : s.DecodingAt f i) : s.tick.DecodingAt f i :=
  ⟨h.in_flight, h.op, h.strategy, h.operands, h.index, h.accumulated⟩

theorem exec_eq (h : s.DecodingAt f i) : exec s.latched s = .next (s.decodeIterate f) := by
  rw [exec_of_decodesIteratively ⟨s.latched_op.trans h.op, h.strategy⟩, State.latched_fields, h.operands]

/-- With n indices left before the stop the decoder answers at the edge after them. -/
theorem answersAt (n : Nat) (h : s.DecodingAt f i) (hn : stopIndex f = i + n) (hr : s.NoResetFor (n + 1)) :
    s.AnswersAt (n + 1) (decodeVarint s.params.ovfBias f) := by
  have hidx := h.index
  have hacc : s.acc = orGroups f s.idx.toNat := hidx.symm ▸ h.accumulated
  induction n generalizing s i with
  | zero =>
    have hstop := State.decodeIterate_at_stop (hidx.trans hn.symm) hacc
    exact answersAt_one_of_exec h.in_flight hr.head (h.exec_eq.trans (congrArg _ hstop))
  | succ n ih =>
    have hlt : s.idx.toNat < stopIndex f := by omega
    have hstep : step s = .next (s.decodeIterate f).tick := by
      rw [step_of_busy hr.head h.in_flight.1, h.exec_eq, tickOutcome_next]
    have hmore := State.decodeIterate_before_stop hlt hacc
    have hcount : (s.idx + 1).toNat = i + 1 := (idx_succ_toNat hlt).trans (congrArg (· + 1) hidx)
    have hnext : (s.decodeIterate f).DecodingAt f (i + 1) := by
      rw [hmore, hidx]
      exact ⟨h.in_flight, h.op, h.strategy, h.operands, hcount, rfl⟩
    have hparams : (s.decodeIterate f).params = s.params := by rw [hmore]; rfl
    have hanswers := ih hnext.tick (by omega) (hr.step hstep) hnext.index (hnext.index.symm ▸ hnext.accumulated)
    rw [State.tick_params, hparams] at hanswers
    exact hanswers.after_step h.in_flight hstep

end State.DecodingAt

/-! ### What acceptance latches -/

@[simp] theorem InPorts.offered_op (p : InPorts) : p.offered.op = p.reqOp := Instr.op_ofOp _ _

theorem InPorts.offered_fields (p : InPorts) :
    p.offered.fields = { x := p.reqX, buf := Window.ofPort p.reqBuf, len := p.reqLen } := Instr.fields_ofOp _ _

/-- Operands with the same x, the same valid length and the same window bytes have the same response, whatever op code
they stand with. -/
theorem respond_ofOp_congr (bias : OvfBias) (op : BitVec 2) {f g : Operands} (ha : avail f = avail g)
    (hm : memRead f = memRead g) (hx : f.x = g.x) :
    respond bias (Instr.ofOp op f) = respond bias (Instr.ofOp op g) := by
  simp only [Instr.ofOp]
  split
  · exact decodeVarint_congr ha hm bias
  split
  · rw [respond, respond, hx]
  split
  · rfl
  · rfl

/-- Op code 0b01 is answered by the size calculator (R57). -/
theorem respond_of_op_size (bias : OvfBias) {i : Instr} (hop : i.op = 0b01#2) :
    respond bias i = sizeResponse (size i.fields.x) := by
  cases i with
  | decode f => cases hop
  | size f => rfl
  | rsvd2 f => cases hop
  | rsvd3 f => cases hop

section LatchedAccept

variable (s : State) (p : InPorts)

theorem avail_latched_accept : avail (s.accept p).latchedOperands = avail p.offered.fields := by
  rw [InPorts.offered_fields]
  exact avail_availBits _ _ _ _ _

theorem memRead_latched_accept : memRead (s.accept p).latchedOperands = memRead p.offered.fields := by
  rw [InPorts.offered_fields]
  exact memRead_congr rfl

/-- The latched request has the response of the offered one. -/
theorem respond_latched_accept (bias : OvfBias) :
    respond bias (s.accept p).latched = respond bias p.offered := by
  have havail := avail_latched_accept s p
  have hbytes := memRead_latched_accept s p
  rw [InPorts.offered_fields] at havail hbytes
  exact respond_ofOp_congr bias p.reqOp havail hbytes rfl

end LatchedAccept

/-! ### The busy edges of each kind of request -/

section Accepted

variable {s : State} {p : InPorts}

/-- A request with no iterative datapath and no drawn latency is answered at the first busy edge. -/
theorem accept_answersAt_one (hdec : ¬s.DecodesIteratively p.offered) (hsize : ¬s.SizesIteratively p.offered)
    (hdraw : ¬s.DrawsLatency p.offered) (hr : (s.accept p).tick.NoResetFor 1) :
    (s.accept p).tick.AnswersAt 1 (respond s.params.ovfBias p.offered) := by
  have hexec := exec_of_one_edge (s := (s.accept p).tick) hdec hsize hdraw
  exact answersAt_one_of_exec ⟨rfl, rfl⟩ hr.head ((exec_latched_accept s _ p).trans hexec)

/-- The ITERATIVE decoder answers at the edge of the index where DECODE stops (R103, R105). -/
theorem accept_answersAt_stop (h : s.DecodesIteratively p.offered)
    (hr : (s.accept p).tick.NoResetFor (stopIndex p.offered.fields + 1)) :
    (s.accept p).tick.AnswersAt (stopIndex p.offered.fields + 1) (respond s.params.ovfBias p.offered) := by
  obtain ⟨hop, hiter⟩ := h
  have havail := avail_latched_accept s p
  have hbytes := memRead_latched_accept s p
  have hstop := stopIndex_congr havail hbytes
  have hstart : (s.accept p).DecodingAt (s.accept p).latchedOperands 0 :=
    ⟨⟨rfl, rfl⟩, (InPorts.offered_op p).symm.trans hop, hiter, rfl, rfl, rfl⟩
  have hanswers := hstart.tick.answersAt (stopIndex p.offered.fields) (hstop.trans (Nat.zero_add _).symm) hr
  rw [decodeVarint_congr havail hbytes] at hanswers
  rw [respond_of_op_decode _ hop]
  exact hanswers

/-- The ITERATIVE bit counter answers at the edge that the size says (R80). -/
theorem accept_answersAt_size (h : s.SizesIteratively p.offered)
    (hr : (s.accept p).tick.NoResetFor (size p.offered.fields.x)) :
    (s.accept p).tick.AnswersAt (size p.offered.fields.x) (respond s.params.ovfBias p.offered) := by
  obtain ⟨hop, hiter⟩ := h
  have hx : p.offered.fields.x = p.reqX := congrArg Operands.x p.offered_fields
  have hstart := (State.accept_sizingAt ((InPorts.offered_op p).symm.trans hop) hiter).tick
  obtain ⟨n, hn⟩ := Nat.exists_eq_add_of_le' (one_le_size p.reqX)
  rw [respond_of_op_size _ hop, hx]
  rw [hx, hn] at hr
  have hanswers := hstart.answersAt (by omega) hr
  rwa [← hn] at hanswers

end Accepted

/-- A host that does not reset the block for n edges does not for the first m of them. -/
theorem State.NoResetFor.mono {s : State} {m n : Nat} (h : s.NoResetFor n) (hmn : m ≤ n) : s.NoResetFor m :=
  fun p hp => h p (List.take_subset_take_left _ hmn hp)

/-- Settles O31: UNROLLED finishes at the first busy edge; ITERATIVE runs to the stop. -/
theorem decodeStrategiesPostTheSameResponse : Obligations.DecodeStrategiesPostTheSameResponse := by
  unfold Obligations.DecodeStrategiesPostTheSameResponse
  intro s hacc hop hr
  have hr' := hr.step hacc.step_eq
  rw [← InPorts.offered_op] at hop
  rw [← respond_of_op_decode _ hop]
  refine ⟨fun hunrolled => ?_, fun hiter => ?_⟩
  · have hdec : ¬s.DecodesIteratively s.ports.offered := by simp [hunrolled]
    have hsize : ¬s.SizesIteratively s.ports.offered := by simp [hop]
    have hdraw : ¬s.DrawsLatency s.ports.offered := by simp [hop, hunrolled]
    have hanswers := accept_answersAt_one hdec hsize hdraw (hr'.mono (Nat.le_add_left 1 _))
    exact (hanswers.of_accepts hacc).2
  · exact (accept_answersAt_stop ⟨hop, hiter⟩ hr').of_accepts hacc

/-! ### The latency table -/

theorem referenceLatency_of_decodesIteratively {s : State} {i : Instr} (h : s.DecodesIteratively i) :
    referenceLatency s.params i = stopIndex i.fields + 1 := by
  obtain ⟨hop, hiter⟩ := h
  cases i with
  | decode f => exact if_pos hiter
  | size f => cases hop
  | rsvd2 f => cases hop
  | rsvd3 f => cases hop

theorem referenceLatency_of_sizesIteratively {s : State} {i : Instr} (h : s.SizesIteratively i) :
    referenceLatency s.params i = size i.fields.x := by
  obtain ⟨hop, hiter⟩ := h
  cases i with
  | decode f => cases hop
  | size f => exact if_pos hiter
  | rsvd2 f => cases hop
  | rsvd3 f => cases hop

theorem referenceLatency_of_not_iterative {s : State} {i : Instr} (hdec : ¬s.DecodesIteratively i)
    (hsize : ¬s.SizesIteratively i) : referenceLatency s.params i = 1 := by
  cases i with
  | decode f => exact if_neg fun hiter => hdec ⟨rfl, hiter⟩
  | size f => exact if_neg fun hiter => hsize ⟨rfl, hiter⟩
  | rsvd2 f => rfl
  | rsvd3 f => rfl

/-- The row of an ITERATIVE decoder, by the kind of the response (R105). -/
theorem referenceLatency_decode_by_kind {p : Params} (f : Operands) (hiter : p.decodeStrategy = .iterative) :
    ((decodeVarint p.ovfBias f).status = .ok →
      (decodeVarint p.ovfBias f).count = referenceLatency p (.decode f)) ∧
    ((decodeVarint p.ovfBias f).status = .short → referenceLatency p (.decode f) = avail f + 1) ∧
    ((decodeVarint p.ovfBias f).status = .overflow → referenceLatency p (.decode f) = 10) := by
  have hlat : referenceLatency p (.decode f) = stopIndex f + 1 := if_pos hiter
  obtain ⟨-, hok, hshort, hovf⟩ := decodeStopIndexByKind p.ovfBias f
  rw [hlat]
  exact ⟨hok, fun h => congrArg (· + 1) (hshort h), fun h => congrArg (· + 1) (hovf h)⟩

/-- A block of reference datapaths answers after as many busy edges as the table says (R163). -/
theorem accept_answersAt_referenceLatency {s : State} {p : InPorts} (hd : s.params.decodeStrategy ≠ .other)
    (hs : s.params.sizeStrategy ≠ .other)
    (hr : (s.accept p).tick.NoResetFor (referenceLatency s.params p.offered)) :
    (s.accept p).tick.AnswersAt (referenceLatency s.params p.offered) (respond s.params.ovfBias p.offered) := by
  by_cases hdec : s.DecodesIteratively p.offered
  · rw [referenceLatency_of_decodesIteratively hdec] at hr ⊢
    exact accept_answersAt_stop hdec hr
  by_cases hsize : s.SizesIteratively p.offered
  · rw [referenceLatency_of_sizesIteratively hsize] at hr ⊢
    exact accept_answersAt_size hsize hr
  have hdraw : ¬s.DrawsLatency p.offered := by simp [hd, hs]
  rw [referenceLatency_of_not_iterative hdec hsize] at hr ⊢
  exact accept_answersAt_one hdec hsize hdraw hr

/-- Settles O54: the rows are those of the datapath that runs the request, which answers at the row's busy edge. -/
theorem referenceBlocksPostAtTheTabulatedEdge : Obligations.ReferenceBlocksPostAtTheTabulatedEdge := by
  unfold Obligations.ReferenceBlocksPostAtTheTabulatedEdge
  refine ⟨fun p f => ⟨rfl, rfl, fun hflat => ?_, fun hiter => if_pos hiter, fun hunrolled => ?_,
    referenceLatency_decode_by_kind f⟩, fun s hacc hd hs hr => ?_⟩
  · exact if_neg (by simp [hflat])
  · exact if_neg (by simp [hunrolled])
  · exact (accept_answersAt_referenceLatency hd hs (hr.step hacc.step_eq)).of_accepts hacc

/-! ### Every implementation answers -/

namespace State.Inv

variable {s : State}

/-- The result registers of a block in DONE hold the latched request's response (R22). -/
theorem posts (h : s.Inv) (hd : s.done = true) : s.Posts (respond s.params.ovfBias s.latched) :=
  ⟨h.busy_eq_false hd, hd, h.posted hd⟩

/-- A busy edge posts the response of the latched request, or leaves the block BUSY with one more edge spent (R29). -/
theorem busy_step (h : s.Inv) (hb : s.busy = true) (hr : s.ports.rst = false) :
    ∃ t, Machine.step s = .next t ∧ t.params = s.params ∧
      (t.Posts (respond s.params.ovfBias s.latched) ∨
        t.Inv ∧ t.InFlight ∧ t.latched = s.latched ∧ t.waited = s.waited + 1) := by
  obtain ⟨u, hu, hedge⟩ := exec_busyEdge s.latched s
  have hinv := (h.busyEdge hb hu).tick
  refine ⟨u.tick, by rw [step_of_busy hr hb, hu, tickOutcome_next], ?_⟩
  obtain ⟨r, rfl⟩ | ⟨acc, idx, szRem, szCnt, rfl⟩ := hedge
  · exact ⟨rfl, .inl (hinv.posts rfl)⟩
  · exact ⟨rfl, .inr ⟨hinv, ⟨hb, h.done_eq_false hb⟩, rfl, rfl⟩⟩

/-- With n busy edges left before `LAT_MAX` a BUSY block answers at one of them (R29, R162). -/
theorem answers (n : Nat) (h : s.Inv) (hb : s.busy = true) (hn : s.params.latMax = s.waited + n)
    (hr : s.NoResetFor n) :
    ∃ d, 1 ≤ d ∧ d ≤ n ∧ s.AnswersAt d (respond s.params.ovfBias s.latched) := by
  induction n generalizing s with
  | zero =>
    have := h.bounded hb
    omega
  | succ n ih =>
    have hflight : s.InFlight := ⟨hb, h.done_eq_false hb⟩
    obtain ⟨t, hstep, hparams, hposts | ⟨hinv, hbusy, hlatched, hwaited⟩⟩ := h.busy_step hb hr.head
    · exact ⟨1, le_rfl, Nat.le_add_left 1 n, (State.Posts.answersAt_zero hposts).after_step hflight hstep⟩
    · have hleft : t.params.latMax = t.waited + n := by rw [hparams, hwaited]; omega
      obtain ⟨d, -, hd, hanswers⟩ := ih hinv hbusy.1 hleft (hr.step hstep)
      rw [hparams, hlatched] at hanswers
      exact ⟨d + 1, Nat.le_add_left 1 d, Nat.succ_le_succ hd, hanswers.after_step hflight hstep⟩

end State.Inv

/-- Settles O53: acceptance starts the invariant with no busy edge spent, so one of the next `LAT_MAX` answers. -/
theorem everyRequestIsAnsweredInTime : Obligations.EveryRequestIsAnsweredInTime := by
  unfold Obligations.EveryRequestIsAnsweredInTime
  intro s hl hacc hr
  have hr' := hr.step hacc.step_eq
  obtain ⟨d, h1, hd, hanswers⟩ := (inv_accept s.ports hl).tick.answers _ rfl (Nat.zero_add _).symm hr'
  rw [State.tick_latched, respond_latched_accept] at hanswers
  exact ⟨d, h1, hd, hanswers.of_accepts hacc⟩

/-! ### A host that serves requests -/

theorem awaitDone_of_done (n : Nat) {s : State} (hd : s.done = true) : awaitDone n s = .next s := by
  cases n with
  | zero => rfl
  | succ n => rw [awaitDone, if_pos hd]

theorem awaitDone_of_not_done (n : Nat) {s t : State} (hd : s.done = false)
    (ht : edgeWith InPorts.quiet s = .next t) : awaitDone (n + 1) s = awaitDone n t := by
  rw [awaitDone, hd, ht]
  rfl

/-- A host that waits out the busy edges left before `LAT_MAX` sees the response posted (R160, R162). -/
theorem awaitDone_posts (n : Nat) {s : State} (h : s.Inv) (hb : s.busy = true)
    (hn : s.params.latMax = s.waited + n) :
    ∃ t, awaitDone n s = .next t ∧ t.params = s.params ∧ t.Posts (respond s.params.ovfBias s.latched) := by
  induction n generalizing s with
  | zero =>
    have := h.bounded hb
    omega
  | succ n ih =>
    have hquiet : (s.withPorts InPorts.quiet).Inv := h.surroundings _ _ _
    obtain ⟨t, hstep, hparams, hcases⟩ := hquiet.busy_step hb rfl
    have hwait := awaitDone_of_not_done n (h.done_eq_false hb) hstep
    obtain hposts | ⟨hinv, hbusy, hlatched, hwaited⟩ := hcases
    · exact ⟨t, hwait.trans (awaitDone_of_done n hposts.2.1), hparams, hposts⟩
    · have hleft : t.params.latMax = t.waited + n := by
        rw [hparams, hwaited]
        exact hn.trans (Nat.add_right_comm s.waited n 1)
      obtain ⟨u, hu, huparams, hposts⟩ := ih hinv hbusy.1 hleft
      rw [hparams, hlatched] at hposts
      exact ⟨u, hwait.trans hu, huparams.trans hparams, hposts⟩

/-- The ports of a host that offers a request's word offer the request. -/
theorem offered_offering_encode (i : Instr) : (InPorts.offering (encode i)).offered = i :=
  encodedRequestDecodesToItself i

/-- Serving a request from a block that is not BUSY posts its response. -/
theorem serve_posts (i : Instr) {s : State} (hl : s.params.Legal) (hb : s.busy = false) :
    ∃ t, serve i s = .next t ∧ t.params = s.params ∧ t.Posts (respond s.params.ovfBias i) := by
  have haccept := step_of_offer (s := s.withPorts (InPorts.offering (encode i))) rfl hb rfl
  have hinv := (inv_accept (s := s.withPorts (InPorts.offering (encode i))) (InPorts.offering (encode i)) hl).tick
  obtain ⟨t, ht, hparams, hposts⟩ := awaitDone_posts _ hinv rfl (Nat.zero_add _).symm
  rw [State.tick_latched, respond_latched_accept, offered_offering_encode] at hposts
  refine ⟨t, ?_, hparams, hposts⟩
  have hedge : edgeWith (InPorts.offering (encode i)) s = _ := haccept
  rw [serve, hedge]
  exact ht

/-- A program whose first request is served goes on with the others. -/
theorem runProgram_cons {i : Instr} {rest : List Instr} {s t u : State} {rs : List Rsp}
    (ht : serve i s = .next t) (hu : runProgram rest t = .next (rs, u)) :
    runProgram (i :: rest) s = .next (t.hostRead :: rs, u) := by
  simp only [runProgram, ht, hu]

/-- A host reads the response that is posted (R160). -/
theorem State.Posts.hostRead_eq {s : State} {r : Response} (h : s.Posts r) : s.hostRead = r.toRsp :=
  (if_pos h.2.1).trans h.2.2

/-- Settles O55, by induction on the list of requests: each is served in turn and leaves a block that is not BUSY. -/
theorem hostProgramGetsEveryResponse : Obligations.HostProgramGetsEveryResponse := by
  unfold Obligations.HostProgramGetsEveryResponse
  intro prog
  induction prog with
  | nil => exact fun s _ hb => ⟨s, rfl, hb, rfl, nofun⟩
  | cons i rest ih =>
    intro s hl hb
    obtain ⟨t, ht, hparams, hposts⟩ := serve_posts i hl hb
    obtain ⟨u, hu, hbusy, huparams, hlast⟩ := ih t (hparams ▸ hl) hposts.1
    rw [hparams] at hu huparams hlast
    have hrun := runProgram_cons ht hu
    rw [hposts.hostRead_eq] at hrun
    refine ⟨u, hrun, hbusy, huparams, fun j hj => ?_⟩
    cases rest with
    | nil =>
      obtain rfl : i = j := by simpa using hj
      cases hu
      exact hposts
    | cons k rest => exact hlast j hj

end Sys2Proof.Machine
end
